-- ==== Sys2Proof/Word.lean ====
section
/-! DEFINITION. The word types of the hardware, each of the one width the spec gives it (00_scope.md R7, R9;
30_encoding.md R71, R74). Everything here is a field of bits; nothing is signed (R9). -/

namespace Sys2Proof

/-- A Message: `msg[3:0]`, `m_1` at bit 3 (R7, R9). -/
abbrev Message := BitVec 4

/-- A Codeword: `cw[6:0]`, `c_1` at bit 6 (R7, R9). -/
abbrev Codeword := BitVec 7

/-- A Syndrome: `syn[2:0]`, `s_1` at bit 2 (R7, R9). -/
abbrev Syndrome := BitVec 3

/-- An ErrorPosition 0 to 7 in its 3-bit field `POS` (R7, R74). -/
abbrev ErrorPosition := BitVec 3

/-- A byte of the host's buffer (R7). -/
abbrev Byte := BitVec 8

/-- The operand field `OPD = cmd[7:0]` (R71). -/
abbrev Operand := BitVec 8

/-- The command word (R71). -/
abbrev Command := BitVec 12

/-- The result field `DATA = rsp[15:0]` (R74). -/
abbrev Data := BitVec 16

/-- The response word (R74). -/
abbrev Response := BitVec 24

end Sys2Proof
end

