-- ==== Sys2Proof/Syntax.lean ====
section
/-! DEFINITION. The commands of HC1 as syntax: one constructor per row of spec/opcode_table.json, each with the whole
operand field, as 30_encoding.md R78 decodes them. -/

namespace Sys2Proof

/-- A decoded command. The operand is the raw field `OPD`; its form (R72) is read by the command's own rule, because
"The reserved-bit check of rule R80 is made by each command's rule after decoding, not by the decoder" (R78). -/
inductive Instr where
  /-- ENC, `OP = 0x1`, form M4 (41_codec.md R130). -/
  | enc (opd : Operand)
  /-- SYN, `OP = 0x2`, form C7 (R131). -/
  | syn (opd : Operand)
  /-- COR, `OP = 0x3`, form C7 (R132). -/
  | cor (opd : Operand)
  /-- DEC, `OP = 0x4`, form C7 (R133). -/
  | dec (opd : Operand)
  /-- SPLIT, `OP = 0x5`, form B8 (42_bitstream.md R166). -/
  | split (opd : Operand)
  /-- SPLIT_ENC, `OP = 0x6`, form B8 (R167). -/
  | splitEnc (opd : Operand)
  /-- JOIN, `OP = 0x8`, form M4 (R168). -/
  | join (opd : Operand)
  /-- JOIN_DEC, `OP = 0x9`, form C7 (R169). -/
  | joinDec (opd : Operand)
  /-- END, `OP = 0xA`, form Z (R170). -/
  | endStream (opd : Operand)
  /-- CLR, `OP = 0xB`, form Z (R171). -/
  | clr (opd : Operand)
  /-- Reserved opcode 0x0, operand ignored (30_encoding.md R79; 60_exceptions.md R202). -/
  | reserved0 (opd : Operand)
  /-- Reserved opcode 0x7. -/
  | reserved7 (opd : Operand)
  /-- Reserved opcode 0xC. -/
  | reservedC (opd : Operand)
  /-- Reserved opcode 0xD. -/
  | reservedD (opd : Operand)
  /-- Reserved opcode 0xE. -/
  | reservedE (opd : Operand)
  /-- Reserved opcode 0xF. -/
  | reservedF (opd : Operand)
deriving DecidableEq, Repr

end Sys2Proof
end

