-- ==== Sys2Proof/Machine/Operands.lean ====
section
/-! DEFINITION. The four operand forms of 30_encoding.md R72 and the operand assembly of R73. -/

namespace Sys2Proof.Machine

/-- The operand forms of R72. -/
inductive Form where
  /-- A Message in `OPD[3:0]`; `OPD[7:4]` reserved. -/
  | m4
  /-- A Codeword in `OPD[6:0]`; `OPD[7]` reserved. -/
  | c7
  /-- A byte in `OPD[7:0]`; nothing reserved. -/
  | b8
  /-- No operand; `OPD[7:0]` reserved. -/
  | z
deriving DecidableEq, Repr

/-- Form M4: `msg[3:0] = OPD[3:0]` (R72, R73). -/
def m4Message (opd : Operand) : Message := opd.extractLsb' 0 4

/-- Form C7: `cw[6:0] = OPD[6:0]` (R72, R73). -/
def c7Codeword (opd : Operand) : Codeword := opd.extractLsb' 0 7

/-- Form B8: `b = OPD[7:0]` (R72, R73). -/
def b8Byte (opd : Operand) : Byte := opd

/-- `true` when a reserved bit of the operand is set (R72, R80). -/
def reservedSet (f : Form) (opd : Operand) : Bool :=
  match f with
  | .m4 => opd.extractLsb' 4 4 != 0#4
  | .c7 => opd.extractLsb' 7 1 != 0#1
  | .b8 => false
  | .z => opd != 0#8

/-- The operand field of form M4 that holds a message, reserved bits 0 (R72, R84). -/
def m4Operand (m : Message) : Operand := 0#4 ++ m

/-- The operand field of form C7 that holds a codeword, reserved bit 0 (R72, R84). -/
def c7Operand (r : Codeword) : Operand := 0#1 ++ r

end Sys2Proof.Machine
end

