-- ==== Sys2Proof/WellFormed.lean ====
section
/-! DEFINITION. Which commands are well formed. 30_encoding.md R81 sorts every encoding into three kinds; a command is
well formed when it is of the first kind. The other two kinds are commands too: they decode, run and are answered with an
error (R79, R80). -/

namespace Sys2Proof

open Sys2Proof.Machine (Form reservedSet)

/-- The operand form of a command; none for a reserved opcode, whose operand is ignored (R72, R77). -/
def Instr.form : Instr → Option Form
  | .enc _ => some .m4
  | .syn _ => some .c7
  | .cor _ => some .c7
  | .dec _ => some .c7
  | .split _ => some .b8
  | .splitEnc _ => some .b8
  | .join _ => some .m4
  | .joinDec _ => some .c7
  | .endStream _ => some .z
  | .clr _ => some .z
  | .reserved0 _ => none
  | .reserved7 _ => none
  | .reservedC _ => none
  | .reservedD _ => none
  | .reservedE _ => none
  | .reservedF _ => none

/-- The operand field of a command. -/
def Instr.operand : Instr → Operand
  | .enc opd => opd
  | .syn opd => opd
  | .cor opd => opd
  | .dec opd => opd
  | .split opd => opd
  | .splitEnc opd => opd
  | .join opd => opd
  | .joinDec opd => opd
  | .endStream opd => opd
  | .clr opd => opd
  | .reserved0 opd => opd
  | .reserved7 opd => opd
  | .reservedC opd => opd
  | .reservedD opd => opd
  | .reservedE opd => opd
  | .reservedF opd => opd

/-- The three kinds of encoding of R81. -/
inductive EncodingKind where
  /-- "a command of rule R77 with valid operand bits" -/
  | valid
  /-- "the same with set reserved bits (rule R80)" -/
  | reservedBits
  /-- "a reserved opcode (rule R79)" -/
  | reservedOpcode
deriving DecidableEq, Repr

/-- The kind of a command's encoding (R81). -/
def Instr.kind (i : Instr) : EncodingKind :=
  match i.form with
  | none => .reservedOpcode
  | some f => if reservedSet f i.operand then .reservedBits else .valid

/-- A well-formed command: a mnemonic of R77 with valid operand bits. -/
def Instr.wellFormed (i : Instr) : Bool := i.kind == .valid

end Sys2Proof
end

