-- ==== Sys2Proof/Decode.lean ====
section
/-! DEFINITION. The decoder of 30_encoding.md R78, total over all 4096 command words and refusing none of them (an error is
the command's own answer, R79, R80), and the encoder written from the opcode map of R77. -/

namespace Sys2Proof

/-- The opcode field `OP = cmd[11:8]` (R71). -/
def opField (cmd : Command) : BitVec 4 := cmd.extractLsb' 8 4

/-- The operand field `OPD = cmd[7:0]` (R71). -/
def opdField (cmd : Command) : Operand := cmd.extractLsb' 0 8

/-- The decoder of R78. `OP` has 4 bits, so the last arm is `OP = 0xF` alone. -/
def decode (cmd : Command) : Instr :=
  match (opField cmd).toNat with
  | 0x0 => .reserved0 (opdField cmd)
  | 0x1 => .enc (opdField cmd)
  | 0x2 => .syn (opdField cmd)
  | 0x3 => .cor (opdField cmd)
  | 0x4 => .dec (opdField cmd)
  | 0x5 => .split (opdField cmd)
  | 0x6 => .splitEnc (opdField cmd)
  | 0x7 => .reserved7 (opdField cmd)
  | 0x8 => .join (opdField cmd)
  | 0x9 => .joinDec (opdField cmd)
  | 0xA => .endStream (opdField cmd)
  | 0xB => .clr (opdField cmd)
  | 0xC => .reservedC (opdField cmd)
  | 0xD => .reservedD (opdField cmd)
  | 0xE => .reservedE (opdField cmd)
  | _ => .reservedF (opdField cmd)

/-- The opcode of a command, from the opcode map of R77. -/
def opcode : Instr → BitVec 4
  | .enc _ => 0x1#4
  | .syn _ => 0x2#4
  | .cor _ => 0x3#4
  | .dec _ => 0x4#4
  | .split _ => 0x5#4
  | .splitEnc _ => 0x6#4
  | .join _ => 0x8#4
  | .joinDec _ => 0x9#4
  | .endStream _ => 0xA#4
  | .clr _ => 0xB#4
  | .reserved0 _ => 0x0#4
  | .reserved7 _ => 0x7#4
  | .reservedC _ => 0xC#4
  | .reservedD _ => 0xD#4
  | .reservedE _ => 0xE#4
  | .reservedF _ => 0xF#4

/-- The encoder: `cmd = {OP, OPD}` (R71, R77). -/
def encode (i : Instr) : Command := opcode i ++ i.operand

/-- The command word among `nbits` bits of the opcode table's numbering: the port `cmd` has 12 wires (R70, R71), so a
number with a bit above bit 11 is no command word (log entry 11). -/
def tableWord (nbits w : Nat) : Option Command :=
  if w % 2 ^ nbits < 4096 then some (BitVec.ofNat 12 (w % 2 ^ nbits)) else none

/-- The command the decoder reads from a word of spec/opcode_table.json. -/
def decodeTableWord (nbits w : Nat) : Option Instr := (tableWord nbits w).map decode

end Sys2Proof
end

