-- ==== Sys2Proof/Machine/Gf2.lean ====
section
/-! DEFINITION. The GF(2) linear core (40_gf2_core.md): the one arithmetic primitive `MatVec` (R101), and the four fixed
constants G, H, D and SynTab (R104 to R107). A matrix is the list of its rows; element 1 of a row is its most significant
bit (00_scope.md R9). -/

namespace Sys2Proof.Machine

/-- Element `i` of a vector, numbered from 1 at the most significant bit (R8, R9). -/
def element {n : Nat} (v : BitVec n) (i : Nat) : Bool := v.getMsbD (i - 1)

/-- `MatVec` on the rows numbered from `i` on: the exclusive OR of the rows whose element of `v` is 1. -/
def matVecFrom {n m : Nat} (v : BitVec n) (i : Nat) : List (BitVec m) → BitVec m
  | [] => 0#m
  | row :: rows => (if element v i then row else 0#m) ^^^ matVecFrom v (i + 1) rows

/-- `MatVec(v, M)_j = XOR_{i=1..n} (v_i & M_{i,j})` (R101): the exclusive OR of the rows that `v` selects. -/
def matVec {n m : Nat} (v : BitVec n) (rows : List (BitVec m)) : BitVec m := matVecFrom v 1 rows

/-- Column `j` (numbered from 1) of a matrix of `m` rows, as a vector whose element `i` is the entry of row `i`. -/
def column {n : Nat} (m : Nat) (rows : List (BitVec n)) (j : Nat) : BitVec m :=
  rows.foldl (fun acc row => (acc <<< 1) ||| (BitVec.ofBool (element row j)).setWidth m) 0#m

/-- The transpose of a matrix of `m` rows and `n` columns. -/
def transpose {n : Nat} (m : Nat) (rows : List (BitVec n)) : List (BitVec m) :=
  (List.range n).map fun j => column m rows (j + 1)

/-- The generator matrix, 4 rows `m_1..m_4`, 7 columns `c_1..c_7` (R104). -/
def matG : List (BitVec 7) :=
  [0b1000011#7,
   0b0100101#7,
   0b0010110#7,
   0b0001111#7]

/-- The parity-check matrix, 3 rows `s_1..s_3`, 7 columns `c_1..c_7` (R105). -/
def matH : List (BitVec 7) :=
  [0b0111100#7,
   0b1011010#7,
   0b1101001#7]

/-- The correction-extraction matrix, 7 rows `c_1..c_7`, 4 columns `m_1..m_4` (R106). -/
def matD : List (BitVec 4) :=
  [0b1000#4,
   0b0100#4,
   0b0010#4,
   0b0001#4,
   0b0000#4,
   0b0000#4,
   0b0000#4]

/-- The syndrome table's entries, indexed by `syn[2:0]` (R107). -/
def synTable : List ErrorPosition := [0#3, 7#3, 6#3, 1#3, 5#3, 2#3, 3#3, 4#3]

/-- The entry of a syndrome table of 8 entries at a syndrome. -/
def tableEntry (table : List ErrorPosition) (s : Syndrome) : ErrorPosition := table.getD s.toNat 0#3

/-- `SynTab(s)` (R107). -/
def synTab (s : Syndrome) : ErrorPosition := tableEntry synTable s

/-- The parity sub-matrix `P`: rows `c5c6c7` 011, 101, 110, 111 (00_scope.md R7; 92_eei_decisions.md D2). -/
def parityP : List (BitVec 3) := [0b011#3, 0b101#3, 0b110#3, 0b111#3]

/-- The four parity matrices of D2 that agree with the source's one example: (3,5,6,7), (3,6,5,7), (7,5,6,3), (7,6,5,3).
The hardware of this spec has the first (93_implementation_defined.md U8 lets a model range over all four). -/
def parityCandidates : List (List (BitVec 3)) :=
  [[3#3, 5#3, 6#3, 7#3], [3#3, 6#3, 5#3, 7#3], [7#3, 5#3, 6#3, 3#3], [7#3, 6#3, 5#3, 3#3]]

/-- The identity matrix of size `n`. -/
def identityRows (n : Nat) : List (BitVec n) := (List.range n).map fun i => BitVec.twoPow n (n - 1 - i)

/-- `G = [ I_4 | P ]` (R104). -/
def generatorOf (p : List (BitVec 3)) : List (BitVec 7) := List.zipWith (fun a b => a ++ b) (identityRows 4) p

/-- `H = [ Pᵗ | I_3 ]` (R105). -/
def checkOf (p : List (BitVec 3)) : List (BitVec 7) :=
  List.zipWith (fun a b => a ++ b) (transpose 4 p) (identityRows 3)

/-- The syndrome table that belongs to a parity-check matrix (for D2's other candidates: log entry 7): the entry of a syndrome is the position of the column of
`H` equal to it, 0 where no column is (R107). -/
def syndromeTableOf (h : List (BitVec 7)) : List ErrorPosition :=
  (List.range 8).map fun s =>
    BitVec.ofNat 3 (((List.range 7).find? fun j => (column 3 h (j + 1)).toNat == s).elim 0 (· + 1))

end Sys2Proof.Machine
end

