-- ==== Sys2Proof/Machine/Codec.lean ====
section
/-! DEFINITION. The codeword codec (41_codec.md): the functions Encode, Syndrome, Correct and Decode (R124 to R127), each
once over the matrices it uses and once for the hardware's own constants, and the four combinational units over them
(R120 to R123). -/

namespace Sys2Proof.Machine

/-- `message · G mod 2` for a generator matrix. -/
def encodeWith (g : List (BitVec 7)) (m : Message) : Codeword := matVec m g

/-- `received · Hᵗ mod 2` for a parity-check matrix. -/
def syndromeWith (h : List (BitVec 7)) (r : Codeword) : Syndrome := matVec r (transpose 3 h)

/-- The mask that flips `c_pos`: `1 << (7 - pos)` for `pos` in 1..7, nothing for 0 (R126). -/
def flipMask (pos : ErrorPosition) : Codeword := if pos = 0#3 then 0#7 else 1#7 <<< (7 - pos.toNat)

/-- What `Correct` returns: the corrected codeword and the ErrorPosition. -/
structure Corrected where
  cw : Codeword
  pos : ErrorPosition
deriving DecidableEq, Repr

/-- What `Decode` returns: the message, the ErrorPosition and the syndrome. -/
structure Decoded where
  msg : Message
  pos : ErrorPosition
  syn : Syndrome
deriving DecidableEq, Repr

/-- `Correct(r, s)` for a syndrome table (R126). -/
def correctWith (table : List ErrorPosition) (r : Codeword) (s : Syndrome) : Corrected :=
  { cw := r ^^^ flipMask (tableEntry table s), pos := tableEntry table s }

/-- `Decode(r)` for a parity-check matrix, a syndrome table and an extraction matrix (R127). -/
def decodeWith (h : List (BitVec 7)) (table : List ErrorPosition) (d : List (BitVec 4)) (r : Codeword) : Decoded :=
  let s := syndromeWith h r
  let c := correctWith table r s
  { msg := matVec c.cw d, pos := c.pos, syn := s }

/-- `Encode(m)` (R124). -/
def encodeMessage (m : Message) : Codeword := encodeWith matG m

/-- `Syndrome(r)` (R125). -/
def syndromeOf (r : Codeword) : Syndrome := syndromeWith matH r

/-- `Correct(r, s)` (R126). -/
def correct (r : Codeword) (s : Syndrome) : Corrected := correctWith synTable r s

/-- `Decode(r)` (R127). -/
def decodeCodeword (r : Codeword) : Decoded := decodeWith matH synTable matD r

/-- Unit `hamming_7_4_encoder`: output `cw` for input `msg` (R120). -/
def hamming74Encoder (msg : Message) : Codeword := encodeMessage msg

/-- Unit `hamming_7_4_syndrome_calc`: output `syn` for input `cw_in` (R121). -/
def hamming74SyndromeCalc (cwIn : Codeword) : Syndrome := syndromeOf cwIn

/-- Unit `hamming_7_4_error_corrector`: outputs `cw_corr`, `err_pos` for inputs `cw_in`, `syn`, on all 1024 pairs (R122). -/
def hamming74ErrorCorrector (cwIn : Codeword) (syn : Syndrome) : Corrected := correct cwIn syn

/-- Unit `hamming_7_4_decoder`, built of one syndrome calculator and one error corrector followed by the projection
through D (R123). -/
def hamming74Decoder (cwIn : Codeword) : Decoded :=
  let syn := hamming74SyndromeCalc cwIn
  let c := hamming74ErrorCorrector cwIn syn
  { msg := matVec c.cw matD, pos := c.pos, syn := syn }

end Sys2Proof.Machine
end

