-- ==== Sys2Proof/Machine/Adapter.lean ====
section
/-! DEFINITION. The unit `bitstream_adapter` (42_bitstream.md R160): the combinational split half and the clocked join half
with its two registers. -/

namespace Sys2Proof.Machine

/-- The first message of a byte, `b[7:4]` (R160; 20_memory.md R53). -/
def splitFirst (b : Byte) : Message := b.extractLsb' 4 4

/-- The second message of a byte, `b[3:0]` (R160; R53). -/
def splitSecond (b : Byte) : Message := b.extractLsb' 0 4

/-- The byte of two messages, the earlier one the high nibble (20_memory.md R54). -/
def packByte (first second : Message) : Byte := first ++ second

/-- The operation the join half is told to do, input `j_op[1:0]` (R160). -/
inductive JoinOp where
  | join
  | endStream
  | clr
  | idle
deriving DecidableEq, Repr

/-- `j_op[1:0]` of an operation: 0b00 JOIN, 0b01 END, 0b10 CLR, 0b11 idle (R160). -/
def JoinOp.code : JoinOp → BitVec 2
  | .join => 0b00#2
  | .endStream => 0b01#2
  | .clr => 0b10#2
  | .idle => 0b11#2

/-- The operation of a value of `j_op[1:0]` (R160). -/
def JoinOp.ofCode (c : BitVec 2) : JoinOp :=
  match c.toNat with
  | 0 => .join
  | 1 => .endStream
  | 2 => .clr
  | _ => .idle

/-- The join half's registers `PEND_V` and `PEND_N` (10_state.md R20's `CoreState`). -/
structure Adapter where
  pendV : Bool
  pendN : Message
deriving DecidableEq, Repr

/-- The empty adapter, also its reset value (10_state.md R32). -/
def Adapter.empty : Adapter := { pendV := false, pendN := 0x0#4 }

/-- The join half's outputs (R160). -/
structure JoinOut where
  /-- `j_bv`: a byte is completed. -/
  bv : Bool
  /-- `j_byte[7:0]`: that byte. -/
  byte : Byte
  /-- `j_disc`: a message is discarded. -/
  disc : Bool
  /-- `j_disc_msg[3:0]`: that message. -/
  discMsg : Message
  /-- `j_err_len`: the stream's length is wrong. -/
  errLen : Bool
deriving DecidableEq, Repr

/-- Every output 0. -/
def JoinOut.zero : JoinOut := { bv := false, byte := 0#8, disc := false, discMsg := 0#4, errLen := false }

/-- The join half's outputs, combinational in its state and inputs (R160 with R168, R170, R171). What those rules do not
mention for an operation is 0 (log entry 10). -/
def joinOutputs (op : JoinOp) (msg : Message) (a : Adapter) : JoinOut :=
  match op with
  | .join => if a.pendV then { JoinOut.zero with bv := true, byte := packByte a.pendN msg } else JoinOut.zero
  | .endStream =>
    if a.pendV then { JoinOut.zero with disc := true, discMsg := a.pendN, errLen := true } else JoinOut.zero
  | .clr => { JoinOut.zero with disc := a.pendV, discMsg := a.pendN }
  | .idle => JoinOut.zero

/-- The join half's next state at a rising edge with `rst = 0` (R160 with R168, R170, R171). END empties it "in both
branches" (R170). -/
def joinNext (op : JoinOp) (msg : Message) (a : Adapter) : Adapter :=
  match op with
  | .join => if a.pendV then Adapter.empty else { pendV := true, pendN := msg }
  | .endStream => Adapter.empty
  | .clr => Adapter.empty
  | .idle => a

/-- The join half at one rising edge: `rst = 1` gives the reset values (R160). -/
def joinEdge (rst : Bool) (op : JoinOp) (msg : Message) (a : Adapter) : Adapter :=
  if rst then Adapter.empty else joinNext op msg a

end Sys2Proof.Machine
end

