-- ==== Sys2Proof/Machine/Flags.lean ====
section
/-! DEFINITION. The response word and its three status fields `ERR`, `BV`, `POS` (30_encoding.md R74; 60_exceptions.md
R200). The hardware has no flag register: a status field is part of one response and is not kept (10_state.md R27). -/

namespace Sys2Proof.Machine

/-- The error kinds a response can report (R200). -/
inductive ErrKind where
  /-- No error. -/
  | ok
  /-- "Length violation". -/
  | length
  /-- "Unsupported configuration". -/
  | unsupported
deriving DecidableEq, Repr

/-- The code of an error kind in `ERR` (R200); 0b11 is no kind's code. -/
def ErrKind.code : ErrKind → BitVec 2
  | .ok => 0b00#2
  | .length => 0b01#2
  | .unsupported => 0b10#2

/-- `zext_16` (00_scope.md R10), for every value narrower than `DATA`. -/
def zext16 {n : Nat} (v : BitVec n) : Data := v.setWidth 16

/-- `respond(err, bv, pos, data)`: `rsp = {err[1:0], bv, 0b00, pos[2:0], data[15:0]}` (R74). -/
def respond (err : ErrKind) (bv : Bool) (pos : ErrorPosition) (data : Data) : Response :=
  err.code ++ BitVec.ofBool bv ++ 0b00#2 ++ pos ++ data

/-- Field `ERR = rsp[23:22]` (R74). -/
def rspErr (r : Response) : BitVec 2 := r.extractLsb' 22 2

/-- Field `BV = rsp[21]` (R74). -/
def rspBv (r : Response) : BitVec 1 := r.extractLsb' 21 1

/-- Field `RSV = rsp[20:19]` (R74). -/
def rspRsv (r : Response) : BitVec 2 := r.extractLsb' 19 2

/-- Field `POS = rsp[18:16]` (R74). -/
def rspPos (r : Response) : ErrorPosition := r.extractLsb' 16 3

/-- Field `DATA = rsp[15:0]` (R74). -/
def rspData (r : Response) : Data := r.extractLsb' 0 16

end Sys2Proof.Machine
end

