-- ==== Sys2Proof/Config.lean ====
section
/-! DEFINITION. What is fixed when an instance is built (the elaboration parameter `CODE`, 00_scope.md R3, R7;
60_exceptions.md R211), the implementation parameters of R7 that are not word widths, and the free values of power-on
(10_state.md R33). The constants G, H, D and SynTab stand in Machine/Gf2.lean. -/

namespace Sys2Proof.Config

/-- The legal values of the elaboration parameter `CODE`: "it has no constructor for another code" (R211). -/
inductive Code where
  /-- `CODE = "standard"` (R3). -/
  | standard
deriving DecidableEq, Repr

/-- The text of the one legal value of `CODE` (R3, R7). -/
def codeText : String := "standard"

/-- `RSP_LATENCY` in clock edges (R7; 70_reset_and_hazards.md R236). -/
def rspLatency : Nat := 1

/-- `MSGS_PER_BYTE` (R7). -/
def msgsPerByte : Nat := 2

/-- Free value: `PEND_V` at power-on number `draw` (10_state.md R33: "a free draw that may differ between runs"). -/
opaque powerOnPendV : Nat → Bool

/-- Free value: `PEND_N` at power-on number `draw` (R33). -/
opaque powerOnPendN : Nat → BitVec 4

/-- Free value: `RSP_V` at power-on number `draw` (R33). -/
opaque powerOnRspV : Nat → Bool

/-- Free value: `RSP` at power-on number `draw` (R33). -/
opaque powerOnRsp : Nat → BitVec 24

end Sys2Proof.Config
end

