-- ==== Sys2Proof/Machine/State.lean ====
section
/-! DEFINITION. The state of one `hamming_7_4_core` instance (10_state.md R20), its reset and power-on values, the host's
drive of the input ports, and the reasons a step can stop. -/

namespace Sys2Proof.Machine

/-- What the host does at one rising edge of `clk` (30_encoding.md R70; 70_reset_and_hazards.md R240): the input ports'
values around the edge, and whether it sampled `rsp` in the cycle that ends at this edge. -/
structure Edge where
  /-- Port `rst`. -/
  rst : Bool
  /-- Port `cmd_valid`. -/
  cmdValid : Bool
  /-- Port `cmd[11:0]`. -/
  cmd : Command
  /-- The host sampled `rsp` in the cycle that ends at this edge (its duty of R240 while `rsp_valid = 1`). -/
  rspSampled : Bool
deriving DecidableEq, Repr

/-- The state. The first four fields are the four registers of R20, "The complete mutable state"; the last two are the
model's own: the host's coming drive (log entry 1) and whether a reset has been applied (log entry 2). -/
structure State where
  /-- `PEND_V` (R21). -/
  pendV : Bool
  /-- `PEND_N` (R22). -/
  pendN : Message
  /-- `RSP_V` (R24). -/
  rspV : Bool
  /-- `RSP` (R24). -/
  rsp : Response
  /-- The model's own: an edge with `rst = 1` has happened since power-on (R33; 60_exceptions.md R217). -/
  resetSeen : Bool
  /-- The model's own: the host's drive of the coming edges, oldest first; past its end every edge is idle. -/
  inputs : List Edge
deriving DecidableEq, Repr

/-- The machine never stops with a fault: "The model has no stuck state. Every command word decodes ... and every command
has a next state", and errors are response values, "not model faults" (60_exceptions.md R217). So there is no
constructor: nothing raises a fault, which is safe because nothing is claimed to. -/
inductive Fault where
deriving DecidableEq, Repr

/-- What the model refuses by name. -/
inductive Refusal where
  /-- An instruction without a meaning; raised by an arm of `exec` only. No arm raises it. Safe: the run stops. -/
  | notModelled (mnemonic : String)
  /-- Raised by the clock edge when a command is presented with `rst = 0` and no reset has ever been applied
  (60_exceptions.md R217: "a run that starts without reset"). Safe: the run stops. -/
  | startedWithoutReset
  /-- Raised by the clock edge when the host did not sample a response it was offered (R217: "a host that skips a
  response"). Safe: the run stops, and a claim says nothing about such a host. -/
  | responseSkipped
  /-- Raised by `elaborate` for a `CODE` other than "standard" (R217, R211). Safe: no machine is built. -/
  | codeNotSupported
deriving DecidableEq, Repr

/-- The state right after reset (10_state.md R32). `inputs` and `resetSeen` are the model's own fields. -/
def State.reset : State where
  pendV := false
  pendN := 0x0#4
  rspV := false
  rsp := 0x000000#24
  resetSeen := true
  inputs := []

/-- The state at power-on number `draw`, before any reset: four free values (R33). -/
def State.powerOn (draw : Nat) : State where
  pendV := Config.powerOnPendV draw
  pendN := Config.powerOnPendN draw
  rspV := Config.powerOnRspV draw
  rsp := Config.powerOnRsp draw
  resetSeen := false
  inputs := []

end Sys2Proof.Machine
end

