-- ==== Sys2Proof/Machine/Ops.lean ====
section
/-! DEFINITION. The operations every command is written over: answering, answering with an error (what this hardware has in
the place of an exception, 60_exceptions.md R206), driving the join half, and the register writes of a clock edge
(70_reset_and_hazards.md R235). -/

namespace Sys2Proof.Machine

/-- Answer the command being accepted: `RSP <- r; RSP_V <- 1` (R235; 10_state.md R24). -/
def State.answer (s : State) (r : Response) : State := { s with rspV := true, rsp := r }

/-- The registers of the join half (10_state.md R20). -/
def State.adapter (s : State) : Adapter := { pendV := s.pendV, pendN := s.pendN }

/-- Write the registers of the join half. -/
def State.setAdapter (s : State) (a : Adapter) : State := { s with pendV := a.pendV, pendN := a.pendN }

/-- `raise LENGTH` and `raise UNSUPPORTED`: the command ends with an error response whose `BV`, `POS` and `DATA` are 0, and
`PEND_V` and `PEND_N` keep their values (00_scope.md R11; 30_encoding.md R76; 60_exceptions.md R205). Nothing is saved, no
mode changes and no control is transferred (R206), and there is nothing to return from (R207). -/
def raiseError (k : ErrKind) (s : State) : Host.Outcome State Fault Refusal := .next (s.answer (respond k false 0#3 0#16))

/-- The command ends well and writes no adapter state: `respond(OK, 0, pos, data)`. -/
def respondOk (pos : ErrorPosition) (data : Data) (s : State) : Host.Outcome State Fault Refusal :=
  .next (s.answer (respond .ok false pos data))

/-- The command drives the join half with `op` and `msg`: its registers take their next value and the response is made of
its outputs (42_bitstream.md R160). -/
def joinAndRespond (op : JoinOp) (msg : Message) (response : JoinOut → Response) (s : State) :
    Host.Outcome State Fault Refusal :=
  .next ((s.setAdapter (joinNext op msg s.adapter)).answer (response (joinOutputs op msg s.adapter)))

/-- The registers after an edge with `rst = 1` (R230; 10_state.md R32). -/
def State.resetEdge (s : State) : State :=
  { s with pendV := false, pendN := 0x0#4, rspV := false, rsp := 0x000000#24, resetSeen := true }

/-- The registers after an edge that accepts nothing: `RSP_V <- 0`, the others hold (R235; 60_exceptions.md R216). -/
def State.idleEdge (s : State) : State := { s with rspV := false }

/-- An edge at which the host resets. -/
def Edge.reset : Edge := { rst := true, cmdValid := false, cmd := 0#12, rspSampled := true }

/-- An edge at which the host presents nothing. -/
def Edge.idle : Edge := { rst := false, cmdValid := false, cmd := 0#12, rspSampled := true }

/-- An edge at which the host presents a command. -/
def Edge.command (cmd : Command) : Edge := { rst := false, cmdValid := true, cmd := cmd, rspSampled := true }

/-- Output `cmd_ready = ~rst`, combinational (30_encoding.md R70). -/
def Edge.cmdReady (e : Edge) : Bool := !e.rst

/-- "A command is accepted at a rising edge of `clk` at which `cmd_valid = 1` and `cmd_ready = 1`" (R70). -/
def Edge.accepts (e : Edge) : Bool := e.cmdValid && e.cmdReady

/-- Output `rsp_valid = RSP_V` (R70). -/
def State.rspValid (s : State) : Bool := s.rspV

/-- The host's drive of the next edge; idle where it has listed none (log entry 1). -/
def State.presented (s : State) : Edge := s.inputs.headD Edge.idle

/-- The state with the next edge's drive taken off the list. -/
def State.consume (s : State) : State := { s with inputs := s.inputs.tail }

/-- The host was offered a response in the cycle that ends at this edge and did not sample it (70_reset_and_hazards.md
R240). Before the first reset `RSP_V` is no offer of a response (10_state.md R33). -/
def skipsResponse (e : Edge) (s : State) : Bool := s.resetSeen && s.rspV && !e.rspSampled

/-- Building an instance with the elaboration parameter `CODE` (60_exceptions.md R211): only "standard" gives a machine, in
its power-on state. -/
def elaborate (code : String) (draw : Nat) : Host.Outcome State Fault Refusal :=
  if code = Config.codeText then .next (State.powerOn draw) else .refused .codeNotSupported

end Sys2Proof.Machine
end

