-- ==== Sys2Proof/Machine/CodecCommands.lean ====
section
/-! DEFINITION. The codec commands ENC, SYN, COR and DEC (41_codec.md R130 to R133). None reads or writes the adapter. -/

namespace Sys2Proof.Machine

/-- ENC (R130). -/
def execEnc (opd : Operand) (s : State) : Host.Outcome State Fault Refusal :=
  if reservedSet .m4 opd then raiseError .length s
  else respondOk 0#3 (zext16 (encodeMessage (m4Message opd))) s

/-- SYN (R131). -/
def execSyn (opd : Operand) (s : State) : Host.Outcome State Fault Refusal :=
  if reservedSet .c7 opd then raiseError .length s
  else respondOk 0#3 (zext16 (syndromeOf (c7Codeword opd))) s

/-- COR (R132). -/
def execCor (opd : Operand) (s : State) : Host.Outcome State Fault Refusal :=
  if reservedSet .c7 opd then raiseError .length s
  else
    let r := c7Codeword opd
    let syn := syndromeOf r
    let c := correct r syn
    respondOk c.pos ((zext16 syn <<< 12) ||| zext16 c.cw) s

/-- DEC (R133). -/
def execDec (opd : Operand) (s : State) : Host.Outcome State Fault Refusal :=
  if reservedSet .c7 opd then raiseError .length s
  else
    let d := decodeCodeword (c7Codeword opd)
    respondOk d.pos ((zext16 d.syn <<< 12) ||| zext16 d.msg) s

end Sys2Proof.Machine
end

