-- ==== Sys2Proof/Machine/ReservedCommands.lean ====
section
/-! DEFINITION. The reserved opcodes (30_encoding.md R79; 60_exceptions.md R202): each answers `ERR_UNSUPPORTED` whatever its
operand, which is not examined (R204), and changes no state (R205). -/

namespace Sys2Proof.Machine

/-- Reserved opcode 0x0. -/
def execReserved0 (_opd : Operand) (s : State) : Host.Outcome State Fault Refusal := raiseError .unsupported s

/-- Reserved opcode 0x7. -/
def execReserved7 (_opd : Operand) (s : State) : Host.Outcome State Fault Refusal := raiseError .unsupported s

/-- Reserved opcode 0xC. -/
def execReservedC (_opd : Operand) (s : State) : Host.Outcome State Fault Refusal := raiseError .unsupported s

/-- Reserved opcode 0xD. -/
def execReservedD (_opd : Operand) (s : State) : Host.Outcome State Fault Refusal := raiseError .unsupported s

/-- Reserved opcode 0xE. -/
def execReservedE (_opd : Operand) (s : State) : Host.Outcome State Fault Refusal := raiseError .unsupported s

/-- Reserved opcode 0xF. -/
def execReservedF (_opd : Operand) (s : State) : Host.Outcome State Fault Refusal := raiseError .unsupported s

end Sys2Proof.Machine
end

