-- ==== Sys2Proof/Machine/StreamCommands.lean ====
section
/-! DEFINITION. The bitstream commands SPLIT, SPLIT_ENC, JOIN, JOIN_DEC, END and CLR (42_bitstream.md R166 to R171). -/

namespace Sys2Proof.Machine

/-- SPLIT (R166): no error, no state. -/
def execSplit (opd : Operand) (s : State) : Host.Outcome State Fault Refusal :=
  respondOk 0#3 (zext16 (splitFirst (b8Byte opd) ++ splitSecond (b8Byte opd))) s

/-- SPLIT_ENC (R167): two independent lanes, the first message's codeword in `DATA[13:7]`. -/
def execSplitEnc (opd : Operand) (s : State) : Host.Outcome State Fault Refusal :=
  let ca := encodeMessage (splitFirst (b8Byte opd))
  let cb := encodeMessage (splitSecond (b8Byte opd))
  respondOk 0#3 ((zext16 ca <<< 7) ||| zext16 cb) s

/-- JOIN (R168). -/
def execJoin (opd : Operand) (s : State) : Host.Outcome State Fault Refusal :=
  if reservedSet .m4 opd then raiseError .length s
  else joinAndRespond .join (m4Message opd) (fun o => respond .ok o.bv 0#3 (zext16 o.byte)) s

/-- JOIN_DEC (R169). -/
def execJoinDec (opd : Operand) (s : State) : Host.Outcome State Fault Refusal :=
  if reservedSet .c7 opd then raiseError .length s
  else
    let d := decodeCodeword (c7Codeword opd)
    joinAndRespond .join d.msg
      (fun o => respond .ok o.bv d.pos ((zext16 d.syn <<< 12) ||| (zext16 d.msg <<< 8) ||| zext16 o.byte)) s

/-- END (R170): `ERR_LENGTH` with the discarded message when one is pending; emptied either way. -/
def execEnd (opd : Operand) (s : State) : Host.Outcome State Fault Refusal :=
  if reservedSet .z opd then raiseError .length s
  else
    joinAndRespond .endStream 0#4
      (fun o => respond (if o.errLen then .length else .ok) false 0#3 (zext16 (BitVec.ofBool o.disc ++ o.discMsg))) s

/-- CLR (R171): `DATA[4:0] = {PEND_V, PEND_N}`, and the adapter is emptied. -/
def execClr (opd : Operand) (s : State) : Host.Outcome State Fault Refusal :=
  if reservedSet .z opd then raiseError .length s
  else
    joinAndRespond .clr 0#4
      (fun o => respond .ok false 0#3 (zext16 (BitVec.ofBool o.disc ++ o.discMsg))) s

end Sys2Proof.Machine
end

