-- ==== Sys2Proof/Machine/Dispatch.lean ====
section
/-! DEFINITION. What an accepted command does: one arm per constructor, each one call of the command's own rule
(30_encoding.md R78). -/

namespace Sys2Proof.Machine

def exec (i : Instr) (s : State) : Host.Outcome State Fault Refusal :=
  match i with
  | .enc opd => Sys2Proof.Machine.execEnc opd s
  | .syn opd => Sys2Proof.Machine.execSyn opd s
  | .cor opd => Sys2Proof.Machine.execCor opd s
  | .dec opd => Sys2Proof.Machine.execDec opd s
  | .split opd => Sys2Proof.Machine.execSplit opd s
  | .splitEnc opd => Sys2Proof.Machine.execSplitEnc opd s
  | .join opd => Sys2Proof.Machine.execJoin opd s
  | .joinDec opd => Sys2Proof.Machine.execJoinDec opd s
  | .endStream opd => Sys2Proof.Machine.execEnd opd s
  | .clr opd => Sys2Proof.Machine.execClr opd s
  | .reserved0 opd => Sys2Proof.Machine.execReserved0 opd s
  | .reserved7 opd => Sys2Proof.Machine.execReserved7 opd s
  | .reservedC opd => Sys2Proof.Machine.execReservedC opd s
  | .reservedD opd => Sys2Proof.Machine.execReservedD opd s
  | .reservedE opd => Sys2Proof.Machine.execReservedE opd s
  | .reservedF opd => Sys2Proof.Machine.execReservedF opd s

end Sys2Proof.Machine
end

