-- ==== Sys2Proof/Machine/Clock.lean ====
section
/-! DEFINITION. One rising edge of `clk` (70_reset_and_hazards.md R235) and the wiring of the join half inside the wrapper
(42_bitstream.md R160). -/

namespace Sys2Proof.Machine

/-- One rising edge with drive `e`, from registers `s` (R235). Reset has priority over a command (R230, R231). A command
before any reset is refused by name (60_exceptions.md R217; 10_state.md R33); a reset or an idle edge is not a command and
runs (log entry 2). -/
def clockEdge (e : Edge) (s : State) : Host.Outcome State Fault Refusal :=
  if e.rst then .next s.resetEdge
  else if e.cmdValid then
    if s.resetSeen then exec (decode e.cmd) s else .refused .startedWithoutReset
  else .next s.idleEdge

/-- The next edge: the host's drive is taken off its list, a skipped response is refused by name (R217, R240), and the
registers change as at any edge. -/
def clockStep (s : State) : Host.Outcome State Fault Refusal :=
  if skipsResponse s.presented s then .refused .responseSkipped else clockEdge s.presented s.consume

/-- How the wrapper drives the join half from the decoded command: `j_op` and `j_msg` (R160). A command that does not use the
adapter (20_memory.md R60), or ends in an error before its rule reaches it (60_exceptions.md R205), leaves it idle
(DEDUCED: idle alone holds every state, log entry 15). R160 gives `j_op` only: with END, CLR and
idle, which read no message, `j_msg` is 0 (DESIGN CHOICE, log entry 14). -/
def joinDrive : Instr → JoinOp × Message
  | .join opd => if reservedSet .m4 opd then (.idle, 0#4) else (.join, m4Message opd)
  | .joinDec opd => if reservedSet .c7 opd then (.idle, 0#4) else (.join, (hamming74Decoder (c7Codeword opd)).msg)
  | .endStream opd => if reservedSet .z opd then (.idle, 0#4) else (.endStream, 0#4)
  | .clr opd => if reservedSet .z opd then (.idle, 0#4) else (.clr, 0#4)
  | .enc _ => (.idle, 0#4)
  | .syn _ => (.idle, 0#4)
  | .cor _ => (.idle, 0#4)
  | .dec _ => (.idle, 0#4)
  | .split _ => (.idle, 0#4)
  | .splitEnc _ => (.idle, 0#4)
  | .reserved0 _ => (.idle, 0#4)
  | .reserved7 _ => (.idle, 0#4)
  | .reservedC _ => (.idle, 0#4)
  | .reservedD _ => (.idle, 0#4)
  | .reservedE _ => (.idle, 0#4)
  | .reservedF _ => (.idle, 0#4)

/-- How the wrapper drives the join half at an edge: from the command it accepts (R160), idle where it accepts none. With
`rst = 0` idle is DEDUCED: the adapter must hold there (R235), and idle alone holds every state. With `rst = 1` neither
R160 nor R230 gives `j_op`, and idle is a DESIGN CHOICE: reset has priority in the unit, so it has no effect on the state or
on a response (log entry 15). -/
def edgeDrive (e : Edge) : JoinOp × Message := if e.accepts then joinDrive (decode e.cmd) else (.idle, 0#4)

/-- The drive list with a command presented at the very next edge, after a reset that has been applied, with the response
of the cycle before it sampled. -/
def State.presentFirst (s : State) (cmd : Command) : State :=
  { s with resetSeen := true, inputs := Edge.command cmd :: s.inputs }

end Sys2Proof.Machine
end

