-- ==== Sys2Proof/Machine/Step.lean ====
section
/-! DEFINITION. The step of the machine: one rising edge of `clk` (70_reset_and_hazards.md R235). -/

namespace Sys2Proof.Machine

/-- One step: one rising edge of `clk`. -/
def step (s : State) : Host.Outcome State Fault Refusal := clockStep s

/-- `s` with a command of the opcode table presented at the next edge, so that the next step accepts and runs exactly it.
The core fetches nothing (10_state.md R26; 20_memory.md R66): the host presents the command, so it goes to the head of the
host's drive, and a reset counts as applied (log entry 4). A number with a bit above bit 11 has no word (log entry 11): its
low 12 bits are presented. -/
def State.withFetchWord (s : State) (nbits w : Nat) : State := s.presentFirst (BitVec.ofNat 12 (w % 2 ^ nbits))

end Sys2Proof.Machine
end

