-- ==== Sys2Proof/Machine/Assembler.lean ====
section
/-! DEFINITION. The assembler text of HC1, the `.cmd` directive, the disassembler and the pseudo-instructions
(30_encoding.md R84 to R86). Text is a list of characters. Lexical details the rules leave open: log entry 9. -/

namespace Sys2Proof.Machine

/-- Why the assembler refuses a line (R84, R85). -/
inductive AsmError where
  /-- The first word is no mnemonic, directive or pseudo-instruction. -/
  | unknownMnemonic
  /-- An operand is no unsigned decimal, hexadecimal or binary literal. -/
  | badLiteral
  /-- An operand is out of the range of its form (R85). -/
  | operandOutOfRange
  /-- An operand is missing. -/
  | operandMissing
  /-- An operand stands where none belongs (R85). -/
  | operandUnexpected
deriving DecidableEq, Repr

/-- A mnemonic of R77 with its form and the command it writes. -/
structure CommandRow where
  name : String
  form : Form
  build : Operand → Instr

/-- The ten mnemonics of R77. -/
def commandRows : List CommandRow :=
  [⟨"ENC", .m4, .enc⟩, ⟨"SYN", .c7, .syn⟩, ⟨"COR", .c7, .cor⟩, ⟨"DEC", .c7, .dec⟩,
   ⟨"SPLIT", .b8, .split⟩, ⟨"SPLIT_ENC", .b8, .splitEnc⟩, ⟨"JOIN", .m4, .join⟩, ⟨"JOIN_DEC", .c7, .joinDec⟩,
   ⟨"END", .z, .endStream⟩, ⟨"CLR", .z, .clr⟩]

/-- The pseudo-instructions of R86. -/
inductive Pseudo where
  | toMessages
  | toCodewords
  | fromCodewords
  | fromMessages
  | encodeBytes
  | decodeToBytes
deriving DecidableEq, Repr

/-- The name of a pseudo-instruction (R86). -/
def Pseudo.name : Pseudo → String
  | .toMessages => "TO_MESSAGES"
  | .toCodewords => "TO_CODEWORDS"
  | .fromCodewords => "FROM_CODEWORDS"
  | .fromMessages => "FROM_MESSAGES"
  | .encodeBytes => "ENCODE_BYTES"
  | .decodeToBytes => "DECODE_TO_BYTES"

/-- The operand form of the command a pseudo-instruction repeats (R86, R72). -/
def Pseudo.form : Pseudo → Form
  | .toMessages => .b8
  | .toCodewords => .m4
  | .fromCodewords => .c7
  | .fromMessages => .m4
  | .encodeBytes => .b8
  | .decodeToBytes => .c7

/-- The expansion of a pseudo-instruction (R86). -/
def Pseudo.expand (p : Pseudo) (opds : List Operand) : List Instr :=
  match p with
  | .toMessages => opds.map .split
  | .toCodewords => opds.map .enc
  | .fromCodewords => opds.map .dec
  | .fromMessages => opds.map .join ++ [.endStream 0#8]
  | .encodeBytes => opds.map .splitEnc
  | .decodeToBytes => opds.map .joinDec ++ [.endStream 0#8]

/-- All the pseudo-instructions. -/
def pseudoRows : List Pseudo :=
  [.toMessages, .toCodewords, .fromCodewords, .fromMessages, .encodeBytes, .decodeToBytes]

/-- The largest operand of a form; none where it takes no operand (R85). -/
def operandLimit : Form → Option Nat
  | .m4 => some 15
  | .c7 => some 127
  | .b8 => some 255
  | .z => none

/-- White space inside a line. -/
def isBlank (c : Char) : Bool := c == ' ' || c == '\t' || c == '\r'

/-- A text without the white space at its two ends. -/
def trimText (cs : List Char) : List Char := ((cs.dropWhile isBlank).reverse.dropWhile isBlank).reverse

/-- A line without its comment, which "starts at `;` and runs to the end of the line" (R84). -/
def stripComment (cs : List Char) : List Char := cs.takeWhile fun c => c != ';'

/-- The pieces of a text between the separators `sep`. -/
def splitAt (sep : Char) : List Char → List (List Char)
  | [] => [[]]
  | c :: cs =>
    if c == sep then [] :: splitAt sep cs
    else
      match splitAt sep cs with
      | [] => [[c]]
      | w :: ws => (c :: w) :: ws

/-- The value of a digit character, up to base 16. -/
def digitValue (c : Char) : Option Nat :=
  if '0'.toNat ≤ c.toNat ∧ c.toNat ≤ '9'.toNat then some (c.toNat - '0'.toNat)
  else if 'A'.toNat ≤ c.toNat ∧ c.toNat ≤ 'F'.toNat then some (c.toNat - 'A'.toNat + 10)
  else if 'a'.toNat ≤ c.toNat ∧ c.toNat ≤ 'f'.toNat then some (c.toNat - 'a'.toNat + 10)
  else none

/-- The number written by digits in a base, after `acc`. -/
def digitsFrom (base : Nat) (acc : Nat) : List Char → Option Nat
  | [] => some acc
  | c :: cs =>
    match digitValue c with
    | some d => if d < base then digitsFrom base (acc * base + d) cs else none
    | none => none

/-- "an unsigned literal in decimal (`6`), hexadecimal (`0x6`) or binary (`0b0110`)" (R84). -/
def literalValue (cs : List Char) : Option Nat :=
  match cs with
  | [] => none
  | '0' :: 'x' :: c :: ds => digitsFrom 16 0 (c :: ds)
  | '0' :: 'b' :: c :: ds => digitsFrom 2 0 (c :: ds)
  | c :: ds => digitsFrom 10 0 (c :: ds)

/-- The literals of a list of pieces. -/
def literalValues : List (List Char) → Option (List Nat)
  | [] => some []
  | w :: ws =>
    match literalValue (trimText w), literalValues ws with
    | some v, some vs => some (v :: vs)
    | _, _ => none

/-- The operands of a line: none, or literals separated by commas (R84, R86). -/
def operandsOf (rest : List Char) : Option (List Nat) :=
  if trimText rest = [] then some [] else literalValues (splitAt ',' rest)

/-- The operand fields of operand values, all within their form's range (R72, R85). -/
def fieldsOf (limit : Nat) : List Nat → Except AsmError (List Operand)
  | [] => .ok []
  | v :: vs =>
    if v ≤ limit then
      match fieldsOf limit vs with
      | .ok fs => .ok (BitVec.ofNat 8 v :: fs)
      | .error e => .error e
    else .error .operandOutOfRange

/-- One command of R77 with its operands (R84, R85). -/
def assembleCommand (row : CommandRow) (vs : List Nat) : Except AsmError (List Command) :=
  match operandLimit row.form, vs with
  | none, [] => .ok [encode (row.build 0#8)]
  | none, _ :: _ => .error .operandUnexpected
  | some _, [] => .error .operandMissing
  | some limit, [v] => if v ≤ limit then .ok [encode (row.build (BitVec.ofNat 8 v))] else .error .operandOutOfRange
  | some _, _ :: _ :: _ => .error .operandUnexpected

/-- The directive `.cmd v`, "with `v` from 0 to 0xFFF" (R85). -/
def assembleRaw (vs : List Nat) : Except AsmError (List Command) :=
  match vs with
  | [] => .error .operandMissing
  | [v] => if v ≤ 0xFFF then .ok [BitVec.ofNat 12 v] else .error .operandOutOfRange
  | _ :: _ :: _ => .error .operandUnexpected

/-- A pseudo-instruction "with `k >= 1` operands" (R86). -/
def assemblePseudo (p : Pseudo) (vs : List Nat) : Except AsmError (List Command) :=
  match operandLimit p.form, vs with
  | none, _ => .error .operandUnexpected
  | some _, [] => .error .operandMissing
  | some limit, v :: vs =>
    match fieldsOf limit (v :: vs) with
    | .ok opds => .ok ((p.expand opds).map encode)
    | .error e => .error e

/-- The words of a line whose first word, in upper case, is `name`. -/
def assembleNamed (name : List Char) (vs : List Nat) : Except AsmError (List Command) :=
  match commandRows.find? (fun row => row.name.toList == name) with
  | some row => assembleCommand row vs
  | none =>
    match pseudoRows.find? (fun p => p.name.toList == name) with
    | some p => assemblePseudo p vs
    | none => if name == ".CMD".toList then assembleRaw vs else .error .unknownMnemonic

/-- The first word of a line in upper case: "Mnemonics ... are case-insensitive" (R84). -/
def lineName (line : List Char) : List Char :=
  ((trimText (stripComment line)).takeWhile fun c => !isBlank c).map Char.toUpper

/-- The words one line of source text assembles to (R84 to R86). -/
def assembleLine (line : List Char) : Except AsmError (List Command) :=
  if trimText (stripComment line) = [] then .ok []
  else
    match operandsOf ((trimText (stripComment line)).dropWhile fun c => !isBlank c) with
    | none => .error .badLiteral
    | some vs => assembleNamed (lineName line) vs

/-- The words of lines of source text, one command a line (R84). -/
def assembleLines : List (List Char) → Except AsmError (List Command)
  | [] => .ok []
  | line :: lines =>
    match assembleLine line, assembleLines lines with
    | .ok ws, .ok ws' => .ok (ws ++ ws')
    | .error e, _ => .error e
    | _, .error e => .error e

/-- The words of a source text. -/
def assembleText (text : List Char) : Except AsmError (List Command) := assembleLines (splitAt '\n' text)

/-- A hexadecimal digit. -/
def hexDigit (n : Nat) : Char := "0123456789ABCDEF".toList.getD n '0'

/-- The `k` low hexadecimal digits of a number. -/
def hexDigits : Nat → Nat → List Char
  | 0, _ => []
  | k + 1, n => hexDigits k (n / 16) ++ [hexDigit (n % 16)]

/-- The mnemonic of a command; empty for a reserved opcode, which has none (R77). -/
def mnemonicText : Instr → String
  | .enc _ => "ENC"
  | .syn _ => "SYN"
  | .cor _ => "COR"
  | .dec _ => "DEC"
  | .split _ => "SPLIT"
  | .splitEnc _ => "SPLIT_ENC"
  | .join _ => "JOIN"
  | .joinDec _ => "JOIN_DEC"
  | .endStream _ => "END"
  | .clr _ => "CLR"
  | .reserved0 _ => ""
  | .reserved7 _ => ""
  | .reservedC _ => ""
  | .reservedD _ => ""
  | .reservedE _ => ""
  | .reservedF _ => ""

/-- The operand as the disassembler prints it: "two digits for form `C7` and `B8` and one digit for `M4`" (R84). -/
def operandText (f : Form) (opd : Operand) : List Char :=
  match f with
  | .m4 => " 0x".toList ++ hexDigits 1 opd.toNat
  | .c7 => " 0x".toList ++ hexDigits 2 opd.toNat
  | .b8 => " 0x".toList ++ hexDigits 2 opd.toNat
  | .z => []

/-- The disassembler (R84); a word that R79 or R80 would reject is printed as `.cmd 0xNNN` (R85). -/
def disassemble (cmd : Command) : List Char :=
  match (decode cmd).form with
  | none => ".cmd 0x".toList ++ hexDigits 3 cmd.toNat
  | some f =>
    if reservedSet f (decode cmd).operand then ".cmd 0x".toList ++ hexDigits 3 cmd.toNat
    else (mnemonicText (decode cmd)).toList ++ operandText f (decode cmd).operand

end Sys2Proof.Machine
end

