-- ==== Sys2Proof/Machine/Run.lean ====
section
/-! DEFINITION. Runs and what is observed of them: at the transaction level (20_memory.md R63: the left fold of the commands'
rules) and at the clock level (70_reset_and_hazards.md R235, R241). -/

namespace Sys2Proof.Machine

/-- What is observed of a run: "the sequence of responses `rsp_1..rsp_n` and the final `(PEND_V, PEND_N)`" (R241). -/
structure Observation where
  responses : List Response
  pendV : Bool
  pendN : Message
deriving DecidableEq, Repr

/-- Commands accepted one after another: the responses in acceptance order and the state after the last (R63). -/
def acceptAll : List Command → State → Host.Outcome (List Response × State) Fault Refusal
  | [], s => .next ([], s)
  | cmd :: cmds, s =>
    match exec (decode cmd) s with
    | .next t =>
      match acceptAll cmds t with
      | .next (rs, u) => .next (t.rsp :: rs, u)
      | .fault f => .fault f
      | .refused r => .refused r
    | .fault f => .fault f
    | .refused r => .refused r

/-- `n` rising edges: the response words offered with `rsp_valid = 1` after each, in order, and the state after the last. -/
def clockAll : Nat → State → Host.Outcome (List Response × State) Fault Refusal
  | 0, s => .next ([], s)
  | n + 1, s =>
    match step s with
    | .next t =>
      match clockAll n t with
      | .next (rs, u) => .next (if t.rspValid then t.rsp :: rs else rs, u)
      | .fault f => .fault f
      | .refused r => .refused r
    | .fault f => .fault f
    | .refused r => .refused r

/-- What R241 observes of an outcome of `acceptAll` or `clockAll`. -/
def observe : Host.Outcome (List Response × State) Fault Refusal → Host.Outcome Observation Fault Refusal
  | .next (rs, s) => .next { responses := rs, pendV := s.pendV, pendN := s.pendN }
  | .fault f => .fault f
  | .refused r => .refused r

/-- The observation of the host's whole listed drive from state `s`. -/
def observeDrive (s : State) : Host.Outcome Observation Fault Refusal := observe (clockAll s.inputs.length s)

/-- A run of R241: from power-on number `draw`, "a reset followed by a finite sequence of accepted commands". -/
def run (draw : Nat) (cmds : List Command) : Host.Outcome Observation Fault Refusal :=
  observeDrive { State.powerOn draw with inputs := Edge.reset :: cmds.map Edge.command }

/-- The commands accepted at a list of edges, in order (30_encoding.md R70). -/
def acceptedCommands : List Edge → List Command
  | [] => []
  | e :: es => if e.accepts then e.cmd :: acceptedCommands es else acceptedCommands es

end Sys2Proof.Machine
end

