-- ==== Sys2Proof/Machine/Sequences.lean ====
section
/-! DEFINITION. The source's whole-buffer functions over finite sequences (42_bitstream.md R161 to R163). They are what a
stream of commands must reproduce (R165); no command computes them at once. -/

namespace Sys2Proof.Machine

/-- `ToMessages` (R161). -/
def toMessages : List Byte → List Message
  | [] => []
  | b :: bs => splitFirst b :: splitSecond b :: toMessages bs

/-- `FromMessages` (R162): an odd number of messages is `Error LENGTH`. -/
def fromMessages : List Message → Except ErrKind (List Byte)
  | [] => .ok []
  | [_] => .error .length
  | a :: b :: ms =>
    match fromMessages ms with
    | .ok bytes => .ok (packByte a b :: bytes)
    | .error e => .error e

/-- `ToCodewords` (R163). -/
def toCodewords (ms : List Message) : List Codeword := ms.map encodeMessage

/-- `FromCodewords` (R163). -/
def fromCodewords (rs : List Codeword) : List Message := rs.map fun r => (decodeCodeword r).msg

end Sys2Proof.Machine
end

