-- ==== Sys2Proof/Safety.lean ====
section
/-! DEFINITION. The terms the statements use: what counts as a safe run (the host's duties, 70_reset_and_hazards.md R240), the
invariants (10_state.md R23; 30_encoding.md R74; 60_exceptions.md R200), and plain notions of vectors, matrices and literals. -/

namespace Sys2Proof.Machine

/-- The host keeps its duty to sample at every listed edge (R240). -/
def State.hostSamples (s : State) : Bool := s.inputs.all fun e => e.rspSampled

/-- No listed edge is a reset. -/
def State.noReset (s : State) : Bool := s.inputs.all fun e => !e.rst

/-- R23, guarded by "reset has been applied" (R33): `PEND_V = 0` implies `PEND_N = 0`. -/
def State.adapterInv (s : State) : Bool := !s.resetSeen || s.pendV || s.pendN == 0#4

/-- A word the core may put on `rsp`: `RSV = 0` and `ERR` not 0b11 (R74, R200). -/
def legalResponse (r : Response) : Bool := rspRsv r == 0#2 && rspErr r != 0b11#2

/-- Once reset has been applied, `RSP` holds a legal word. -/
def State.responseInv (s : State) : Bool := !s.resetSeen || legalResponse s.rsp

/-- "every response has `ERR = OK`", the postcondition R217 names. -/
def Observation.clean (o : Observation) : Bool := o.responses.all fun r => rspErr r == 0b00#2

/-- The bytes a host takes from a stream's responses: `DATA[7:0]` of exactly those with `BV = 1`, in order (R165). -/
def bytesOf (rs : List Response) : List Byte :=
  (rs.filter fun r => rspBv r == 1#1).map fun r => (rspData r).extractLsb' 0 8

/-- `XOR_{i=1..n} f i` (00_scope.md R10). -/
def xorOver (f : Nat → Bool) : Nat → Bool
  | 0 => false
  | n + 1 => xor (xorOver f n) (f (n + 1))

/-- The entries of a matrix as the spec's tables print them: a row is a list of 0 and 1, element 1 first. -/
def matrixEntries {n : Nat} (rows : List (BitVec n)) : List (List Nat) :=
  rows.map fun row => (List.range n).map fun j => (element row (j + 1)).toNat

/-- The number of 1 bits of a codeword. -/
def weight (c : Codeword) : Nat := ((List.range 7).filter fun j => element c (j + 1)).length

/-- One of the 16 words that `Encode` gives (41_codec.md R134). -/
def isCodeword (c : Codeword) : Bool := (List.range 16).any fun m => encodeMessage (BitVec.ofNat 4 m) == c

/-- How many pairs of a message and an error pattern of the given weight satisfy a test (R129). -/
def errorCases (w : Nat) (test : Message → Codeword → Bool) : Nat :=
  (((List.range 16).map fun m =>
    ((List.range 128).filter fun e =>
      weight (BitVec.ofNat 7 e) == w && test (BitVec.ofNat 4 m) (BitVec.ofNat 7 e)).length)).sum

/-- The word of `JOIN m` (30_encoding.md R84). -/
def joinWord (m : Message) : Command := encode (.join (m4Operand m))

/-- The word of `JOIN_DEC r`. -/
def joinDecWord (r : Codeword) : Command := encode (.joinDec (c7Operand r))

/-- The word of `ENC m`. -/
def encWord (m : Message) : Command := encode (.enc (m4Operand m))

/-- The word of `DEC r`. -/
def decWord (r : Codeword) : Command := encode (.dec (c7Operand r))

/-- The word of `END`. -/
def endWord : Command := encode (.endStream 0#8)

/-- The `k` low digits of a number in a base, as a literal writes them (30_encoding.md R84). -/
def literalDigits (base : Nat) : Nat → Nat → List Char
  | 0, _ => []
  | k + 1, n => literalDigits base k (n / base) ++ [hexDigit (n % base)]

/-- Codewords after the host's noise: codeword `i` with bit `p_i` flipped, none where `p_i = 0` (70_reset_and_hazards.md
R240; 95_test_vectors.md section 4, `clean` mode). -/
def withNoise (cws : List Codeword) (ps : List ErrorPosition) : List Codeword :=
  List.zipWith (fun cw p => cw ^^^ flipMask p) cws ps

end Sys2Proof.Machine
end

