-- ==== Sys2Proof/Certificates/Slice0/Obligations.lean ====
section
/-! DEFINITION. The statements for the provers. Each docstring names the rule of spec/ it formalises. A command's own statement
has the whole next state as its conclusion, so it is at once its result, its frame and its completion. -/

open Sys2Proof Sys2Proof.Machine

/-! ### The GF(2) core (40_gf2_core.md) -/

/-- R101: element `j` of `MatVec(v, M)` is the exclusive OR over `i` of `v_i & M_{i,j}`, at every shape. -/
def Obligations.MatVecIsXorOfAnds : Prop :=
  ∀ (n m : Nat) (v : BitVec n) (rows : List (BitVec m)), rows.length = n →
    ∀ j, 1 ≤ j → j ≤ m →
      element (matVec v rows) j = xorOver (fun i => element v i && element (rows.getD (i - 1) 0#m) j) n

/-- R104, R105, R106: the entries of G, H and D as the tables print them, `G = [I_4 | P]`, `H = [Pᵗ | I_3]`,
`G · Hᵗ = 0`, `G · D = I_4`, the columns of H, and the zero syndrome of every codeword. -/
def Obligations.MatricesAsTabulated : Prop :=
  matrixEntries matG = [[1, 0, 0, 0, 0, 1, 1], [0, 1, 0, 0, 1, 0, 1], [0, 0, 1, 0, 1, 1, 0], [0, 0, 0, 1, 1, 1, 1]] ∧
  matrixEntries matH = [[0, 1, 1, 1, 1, 0, 0], [1, 0, 1, 1, 0, 1, 0], [1, 1, 0, 1, 0, 0, 1]] ∧
  matrixEntries matD = [[1, 0, 0, 0], [0, 1, 0, 0], [0, 0, 1, 0], [0, 0, 0, 1], [0, 0, 0, 0], [0, 0, 0, 0], [0, 0, 0, 0]] ∧
  parityP.map BitVec.toNat = [3, 5, 6, 7] ∧
  generatorOf parityP = matG ∧
  checkOf parityP = matH ∧
  matG.map (fun row => matVec row (transpose 3 matH)) = [0#3, 0#3, 0#3, 0#3] ∧
  matG.map (fun row => matVec row matD) = identityRows 4 ∧
  matD = identityRows 4 ++ [0#4, 0#4, 0#4] ∧
  ((List.range 7).map fun j => column 3 matH (j + 1)).Nodup ∧
  (∀ s : Syndrome, s ≠ 0#3 ↔ s ∈ (List.range 7).map fun j => column 3 matH (j + 1)) ∧
  ∀ m : Message, syndromeOf (encodeMessage m) = 0#3

/-- R107, R108: the syndrome table, its property of being a bijection, and that it follows from H. -/
def Obligations.SyndromeTableBijection : Prop :=
  (List.range 8).map (fun s => (synTab (BitVec.ofNat 3 s)).toNat) = [0, 7, 6, 1, 5, 2, 3, 4] ∧
  syndromeTableOf matH = synTable ∧
  (∀ s : Syndrome, s ≠ 0#3 → column 3 matH (synTab s).toNat = s) ∧
  (∀ p : ErrorPosition, p ≠ 0#3 → syndromeOf (flipMask p) = column 3 matH p.toNat) ∧
  (∀ s : Syndrome, synTab s = 0#3 ↔ s = 0#3) ∧
  (∀ s s' : Syndrome, synTab s = synTab s' → s = s') ∧
  ∀ p : ErrorPosition, p ≠ 0#3 → ∃ s : Syndrome, s ≠ 0#3 ∧ synTab s = p

/-- 92_eei_decisions.md D2, 93_implementation_defined.md U8: the properties of §8 that depend on the matrices hold under all
four parity matrices of D2, the spec's own being the first, so none of them rests on the choice: the example, the round
trip and single-flip correction, two-bit miscorrection, and the bijection of the syndrome table. Each candidate's syndrome
table is the model's, built as R107 says of its own: "Each entry for a non-zero syndrome is the position `p` whose column
of `H` (rule R105) equals that syndrome" (log entry 7). -/
def Obligations.EveryParityCandidateCorrectsOneFlip : Prop :=
  parityCandidates.head? = some parityP ∧
  ∀ p ∈ parityCandidates,
    encodeWith (generatorOf p) 0b0110#4 = 0b0110011#7 ∧
    (∀ m : Message, ∀ pos : ErrorPosition,
      (decodeWith (checkOf p) (syndromeTableOf (checkOf p)) matD (encodeWith (generatorOf p) m ^^^ flipMask pos)).msg = m) ∧
    (∀ m : Message, ∀ i j : ErrorPosition, i ≠ 0#3 → j ≠ 0#3 → i ≠ j →
      (decodeWith (checkOf p) (syndromeTableOf (checkOf p)) matD
        (encodeWith (generatorOf p) m ^^^ flipMask i ^^^ flipMask j)).msg ≠ m) ∧
    (∀ s : Syndrome, tableEntry (syndromeTableOf (checkOf p)) s = 0#3 ↔ s = 0#3) ∧
    (∀ s s' : Syndrome,
      tableEntry (syndromeTableOf (checkOf p)) s = tableEntry (syndromeTableOf (checkOf p)) s' → s = s') ∧
    ∀ pos : ErrorPosition, pos ≠ 0#3 → ∃ s : Syndrome, s ≠ 0#3 ∧ tableEntry (syndromeTableOf (checkOf p)) s = pos

/-! ### The codec (41_codec.md) -/

/-- R120, R124: `Encode` is `MatVec(m, G)`, in element form and in port bits, and the encoder unit computes it. -/
def Obligations.EncoderEquations : Prop :=
  ∀ m : Message,
    hamming74Encoder m = encodeMessage m ∧
    encodeMessage m = matVec m matG ∧
    (∀ i, 1 ≤ i → i ≤ 4 → element (encodeMessage m) i = element m i) ∧
    element (encodeMessage m) 5 = (element m 2 ^^ element m 3 ^^ element m 4) ∧
    element (encodeMessage m) 6 = (element m 1 ^^ element m 3 ^^ element m 4) ∧
    element (encodeMessage m) 7 = (element m 1 ^^ element m 2 ^^ element m 4) ∧
    (encodeMessage m).extractLsb' 3 4 = m ∧
    (encodeMessage m).getLsbD 2 = (m.getLsbD 2 ^^ m.getLsbD 1 ^^ m.getLsbD 0) ∧
    (encodeMessage m).getLsbD 1 = (m.getLsbD 3 ^^ m.getLsbD 1 ^^ m.getLsbD 0) ∧
    (encodeMessage m).getLsbD 0 = (m.getLsbD 3 ^^ m.getLsbD 2 ^^ m.getLsbD 0)

/-- R121, R125: `Syndrome` is `MatVec(r, Hᵗ)`, in element form and in port bits, and the syndrome unit computes it. -/
def Obligations.SyndromeEquations : Prop :=
  (∀ r : Codeword,
    hamming74SyndromeCalc r = syndromeOf r ∧
    syndromeOf r = matVec r (transpose 3 matH) ∧
    element (syndromeOf r) 1 = (element r 2 ^^ element r 3 ^^ element r 4 ^^ element r 5) ∧
    element (syndromeOf r) 2 = (element r 1 ^^ element r 3 ^^ element r 4 ^^ element r 6) ∧
    element (syndromeOf r) 3 = (element r 1 ^^ element r 2 ^^ element r 4 ^^ element r 7) ∧
    (syndromeOf r).getLsbD 2 = (r.getLsbD 5 ^^ r.getLsbD 4 ^^ r.getLsbD 3 ^^ r.getLsbD 2) ∧
    (syndromeOf r).getLsbD 1 = (r.getLsbD 6 ^^ r.getLsbD 4 ^^ r.getLsbD 3 ^^ r.getLsbD 1) ∧
    (syndromeOf r).getLsbD 0 = (r.getLsbD 6 ^^ r.getLsbD 5 ^^ r.getLsbD 3 ^^ r.getLsbD 0)) ∧
  ∀ m : Message, syndromeOf (encodeMessage m) = 0#3

/-- R122, R126: `Correct` looks up the position and flips exactly `c_pos`, on all 1024 pairs, whatever the syndrome. -/
def Obligations.CorrectorFlipsNamedBit : Prop :=
  ∀ (r : Codeword) (s : Syndrome),
    hamming74ErrorCorrector r s = correct r s ∧
    (correct r s).pos = synTab s ∧
    (synTab s = 0#3 → (correct r s).cw = r) ∧
    (synTab s ≠ 0#3 → (correct r s).cw = r ^^^ (1#7 <<< (7 - (synTab s).toNat))) ∧
    ∀ j, 1 ≤ j → j ≤ 7 → element (correct r s).cw j = (element r j ^^ decide (j = (synTab s).toNat))

/-- R123, R127: `Decode` is the syndrome, the correction and the projection through D, which is `rc[6:3]`; the decoder unit
is built of the other two. -/
def Obligations.DecoderComposes : Prop :=
  ∀ r : Codeword,
    hamming74Decoder r = decodeCodeword r ∧
    (decodeCodeword r).syn = syndromeOf r ∧
    (decodeCodeword r).pos = (correct r (syndromeOf r)).pos ∧
    (decodeCodeword r).msg = matVec (correct r (syndromeOf r)).cw matD ∧
    (decodeCodeword r).msg = (correct r (syndromeOf r)).cw.extractLsb' 3 4

/-- R128: the single-error guarantee, with the position and the syndrome reported. -/
def Obligations.SingleFlipRecovered : Prop :=
  (∀ (m : Message) (p : Nat), 1 ≤ p → p ≤ 7 →
    decodeCodeword (encodeMessage m ^^^ (1#7 <<< (7 - p))) = { msg := m, pos := BitVec.ofNat 3 p, syn := column 3 matH p }) ∧
  ∀ m : Message, decodeCodeword (encodeMessage m) = { msg := m, pos := 0#3, syn := 0#3 }

/-- R129: two or more flips never give the original message back, and when the syndrome is 0, with the counts. -/
def Obligations.TwoOrMoreFlipsNeverRecovered : Prop :=
  (∀ (m : Message) (e : Codeword), 2 ≤ weight e → (decodeCodeword (encodeMessage m ^^^ e)).msg ≠ m) ∧
  (∀ (m : Message) (e : Codeword), weight e = 2 →
    (decodeCodeword (encodeMessage m ^^^ e)).syn ≠ 0#3 ∧
    ∀ p, 1 ≤ p → p ≤ 7 → element e p = true → (decodeCodeword (encodeMessage m ^^^ e)).pos ≠ BitVec.ofNat 3 p) ∧
  (∀ (m : Message) (e : Codeword), (decodeCodeword (encodeMessage m ^^^ e)).syn = 0#3 ↔ isCodeword e = true) ∧
  (∀ (m : Message) (e : Codeword),
    (decodeCodeword (encodeMessage m ^^^ e)).syn = 0#3 ↔ (decodeCodeword (encodeMessage m ^^^ e)).pos = 0#3) ∧
  ([2, 3, 4, 5, 6, 7].map fun w => errorCases w fun _ _ => true) = [336, 560, 560, 336, 112, 16] ∧
  ([2, 3, 4, 5, 6, 7].map fun w => errorCases w fun m e => (decodeCodeword (encodeMessage m ^^^ e)).syn == 0#3) =
    [0, 112, 112, 0, 0, 16]

/-- R134: the 16 codewords and their weights; the minimum non-zero weight is 3. -/
def Obligations.CodewordTable : Prop :=
  ((List.range 16).map fun m => (encodeMessage (BitVec.ofNat 4 m)).toNat) =
    [0x00, 0x0F, 0x16, 0x19, 0x25, 0x2A, 0x33, 0x3C, 0x43, 0x4C, 0x55, 0x5A, 0x66, 0x69, 0x70, 0x7F] ∧
  ((List.range 16).map fun m => weight (encodeMessage (BitVec.ofNat 4 m))) =
    [0, 4, 3, 3, 3, 3, 4, 4, 3, 3, 4, 4, 4, 4, 3, 7] ∧
  (∀ m : Message, m ≠ 0#4 → 3 ≤ weight (encodeMessage m))

/-! ### Encoding and assembler text (30_encoding.md) -/

/-- R77, R78: the opcode map with each command's form, for every operand. -/
def Obligations.OpcodeMap : Prop :=
  ∀ opd : Operand,
    (decode (0x1#4 ++ opd) = .enc opd ∧ (Instr.enc opd).form = some .m4) ∧
    (decode (0x2#4 ++ opd) = .syn opd ∧ (Instr.syn opd).form = some .c7) ∧
    (decode (0x3#4 ++ opd) = .cor opd ∧ (Instr.cor opd).form = some .c7) ∧
    (decode (0x4#4 ++ opd) = .dec opd ∧ (Instr.dec opd).form = some .c7) ∧
    (decode (0x5#4 ++ opd) = .split opd ∧ (Instr.split opd).form = some .b8) ∧
    (decode (0x6#4 ++ opd) = .splitEnc opd ∧ (Instr.splitEnc opd).form = some .b8) ∧
    (decode (0x8#4 ++ opd) = .join opd ∧ (Instr.join opd).form = some .m4) ∧
    (decode (0x9#4 ++ opd) = .joinDec opd ∧ (Instr.joinDec opd).form = some .c7) ∧
    (decode (0xA#4 ++ opd) = .endStream opd ∧ (Instr.endStream opd).form = some .z) ∧
    (decode (0xB#4 ++ opd) = .clr opd ∧ (Instr.clr opd).form = some .z) ∧
    (decode (0x0#4 ++ opd) = .reserved0 opd ∧ (Instr.reserved0 opd).form = none) ∧
    (decode (0x7#4 ++ opd) = .reserved7 opd ∧ (Instr.reserved7 opd).form = none) ∧
    (decode (0xC#4 ++ opd) = .reservedC opd ∧ (Instr.reservedC opd).form = none) ∧
    (decode (0xD#4 ++ opd) = .reservedD opd ∧ (Instr.reservedD opd).form = none) ∧
    (decode (0xE#4 ++ opd) = .reservedE opd ∧ (Instr.reservedE opd).form = none) ∧
    (decode (0xF#4 ++ opd) = .reservedF opd ∧ (Instr.reservedF opd).form = none)

/-- R71, R77, R78: decoding and encoding are inverse to one another, for every command with every operand (reserved bits and
reserved opcodes too) and for every word: no bit of an encoding is dropped, and no two words are one command. -/
def Obligations.DecodeEncodeAgree : Prop :=
  (∀ i : Instr, decode (encode i) = i) ∧ (∀ cmd : Command, encode (decode cmd) = cmd)

/-- 95_test_vectors.md: words of programs P1 to P5 of section 3, of section 2.7, and SPLIT's word of section 2.5, decode to the
commands they stand for. -/
def Obligations.SpecWordsDecode : Prop :=
  decode 0b000100000110#12 = .enc 0x06#8 ∧
  decode 0b001000110001#12 = .syn 0x31#8 ∧
  decode 0b001100110001#12 = .cor 0x31#8 ∧
  decode 0b010000110000#12 = .dec 0x30#8 ∧
  decode 0b010101001000#12 = .split 0x48#8 ∧
  decode 0b011001101001#12 = .splitEnc 0x69#8 ∧
  decode 0b100000000100#12 = .join 0x04#8 ∧
  decode 0b100101000001#12 = .joinDec 0x41#8 ∧
  decode 0b101000000000#12 = .endStream 0x00#8 ∧
  decode 0b101100000001#12 = .clr 0x01#8 ∧
  decode 0b011111111111#12 = .reserved7 0xFF#8 ∧
  decode 0b110100010010#12 = .reservedD 0x12#8

/-- R72, R73, R80, R81: the operand forms bit by bit (which bits are reserved, which bit is which element); every word is one
of three kinds, told apart by its opcode and its reserved bits, and a command with reserved bits set is answered
`ERR_LENGTH` (word 0x400000) and changes nothing else. -/
def Obligations.OperandFormsAndEncodingKinds : Prop :=
  (∀ opd : Operand,
    (reservedSet .m4 opd = (opd.getLsbD 7 || opd.getLsbD 6 || opd.getLsbD 5 || opd.getLsbD 4)) ∧
    (reservedSet .c7 opd = opd.getLsbD 7) ∧
    (reservedSet .b8 opd = false) ∧
    (reservedSet .z opd = decide (opd ≠ 0#8)) ∧
    (∀ i, 1 ≤ i → i ≤ 4 → element (m4Message opd) i = opd.getLsbD (4 - i)) ∧
    (∀ i, 1 ≤ i → i ≤ 7 → element (c7Codeword opd) i = opd.getLsbD (7 - i)) ∧
    b8Byte opd = opd) ∧
  ∀ cmd : Command,
    ((decode cmd).kind = .reservedOpcode ↔ opField cmd ∈ [0x0#4, 0x7#4, 0xC#4, 0xD#4, 0xE#4, 0xF#4]) ∧
    ((decode cmd).kind = .reservedBits ↔
      (opField cmd ∈ [0x1#4, 0x8#4] ∧ (opdField cmd).extractLsb' 4 4 ≠ 0#4) ∨
      (opField cmd ∈ [0x2#4, 0x3#4, 0x4#4, 0x9#4] ∧ (opdField cmd).getLsbD 7 = true) ∨
      (opField cmd ∈ [0xA#4, 0xB#4] ∧ opdField cmd ≠ 0#8)) ∧
    ∀ s : State, (decode cmd).kind = .reservedBits →
      exec (decode cmd) s = .next { s with rspV := true, rsp := 0x400000#24 }

/-- R84, R85 (text conventions: log entry 9): assembling what the disassembler prints gives the word back, for all 4096 words;
so a word that R79 or R80 rejects survives as `.cmd`. -/
def Obligations.DisassemblyAssemblesBack : Prop :=
  ∀ cmd : Command, assembleLine (disassemble cmd) = .ok [cmd]

/-- R85 (text conventions: log entry 9): `.cmd` is the only way to write a reserved opcode or a set reserved bit: every word
that any other line assembles to is well formed. -/
def Obligations.OnlyRawDirectiveWritesInvalidWords : Prop :=
  ∀ (line : List Char) (ws : List Command), assembleLine line = .ok ws → lineName line ≠ ".CMD".toList →
    ∀ cmd ∈ ws, (decode cmd).wellFormed = true

/-- R84, R85: what the assembler refuses. A literal in any of the three bases, with any number of digits, is its value, so
nothing is cut off before its range is checked; a command with an operand above its form's limit is refused and one within
it gives its word; any operand on END or CLR is refused; a pseudo-instruction with any operand above the limit is refused;
`.cmd` takes 0 to 0xFFF. The last clause says that a line is judged so, by its name and its operands. The names of the
errors and the text conventions are the model's (log entry 9). -/
def Obligations.AssemblerRefusesOutOfRange : Prop :=
  (∀ k n : Nat,
    (n < 10 ^ (k + 1) → literalValue (literalDigits 10 (k + 1) n) = some n) ∧
    (n < 16 ^ (k + 1) → literalValue ('0' :: 'x' :: literalDigits 16 (k + 1) n) = some n) ∧
    (n < 2 ^ (k + 1) → literalValue ('0' :: 'b' :: literalDigits 2 (k + 1) n) = some n)) ∧
  (operandLimit .m4 = some 15 ∧ operandLimit .c7 = some 127 ∧ operandLimit .b8 = some 255 ∧ operandLimit .z = none) ∧
  (∀ row ∈ commandRows,
    (∀ opd : Operand, (row.build opd).form = some row.form ∧ mnemonicText (row.build opd) = row.name) ∧
    (∀ limit v : Nat, operandLimit row.form = some limit →
      assembleNamed row.name.toList [v] =
        if v ≤ limit then .ok [encode (row.build (BitVec.ofNat 8 v))] else .error .operandOutOfRange) ∧
    ∀ (v : Nat) (vs : List Nat), operandLimit row.form = none →
      assembleNamed row.name.toList (v :: vs) = .error .operandUnexpected) ∧
  (∀ (p : Pseudo) (limit : Nat) (vs : List Nat), operandLimit p.form = some limit → (∃ v ∈ vs, limit < v) →
    assembleNamed p.name.toList vs = .error .operandOutOfRange) ∧
  (∀ v : Nat, assembleNamed ".CMD".toList [v] =
    if v ≤ 0xFFF then .ok [BitVec.ofNat 12 v] else .error .operandOutOfRange) ∧
  ∀ (line : List Char) (vs : List Nat), trimText (stripComment line) ≠ [] →
    operandsOf ((trimText (stripComment line)).dropWhile fun c => !isBlank c) = some vs →
    assembleLine line = assembleNamed (lineName line) vs

/-- R86: a pseudo-instruction with one or more operands in range assembles to its commands in order, with an END after JOIN
and JOIN_DEC; with none it is refused. -/
def Obligations.PseudoInstructionsExpand : Prop :=
  (∀ (p : Pseudo) (limit : Nat) (v : Nat) (vs : List Nat), operandLimit p.form = some limit → (∀ x ∈ v :: vs, x ≤ limit) →
    assembleNamed p.name.toList (v :: vs) =
      .ok ((match p with
        | .toMessages => (v :: vs).map fun x => Instr.split (BitVec.ofNat 8 x)
        | .toCodewords => (v :: vs).map fun x => Instr.enc (BitVec.ofNat 8 x)
        | .fromCodewords => (v :: vs).map fun x => Instr.dec (BitVec.ofNat 8 x)
        | .fromMessages => (v :: vs).map (fun x => Instr.join (BitVec.ofNat 8 x)) ++ [Instr.endStream 0#8]
        | .encodeBytes => (v :: vs).map fun x => Instr.splitEnc (BitVec.ofNat 8 x)
        | .decodeToBytes => (v :: vs).map (fun x => Instr.joinDec (BitVec.ofNat 8 x)) ++ [Instr.endStream 0#8]).map encode)) ∧
  ∀ p : Pseudo, assembleNamed p.name.toList [] = .error .operandMissing

/-! ### The commands: result, frame and completion in one -/

/-- R130: ENC. -/
def Obligations.EncAnswersCodeword : Prop :=
  ∀ (opd : Operand) (s : State),
    decode (0x1#4 ++ opd) = .enc opd ∧
    (opd.extractLsb' 4 4 ≠ 0#4 → exec (.enc opd) s = .next { s with rspV := true, rsp := respond .length false 0#3 0#16 }) ∧
    (opd.extractLsb' 4 4 = 0#4 →
      exec (.enc opd) s =
        .next { s with rspV := true, rsp := respond .ok false 0#3 (zext16 (encodeMessage (opd.extractLsb' 0 4))) }) ∧
    encodeMessage 0x0#4 = 0x00#7 ∧ encodeMessage 0xF#4 = 0x7F#7 ∧
    exec (decode 0x106#12) s = .next { s with rspV := true, rsp := 0x000033#24 }

/-- R131: SYN. -/
def Obligations.SynAnswersSyndrome : Prop :=
  ∀ (opd : Operand) (s : State),
    decode (0x2#4 ++ opd) = .syn opd ∧
    (opd.extractLsb' 7 1 ≠ 0#1 → exec (.syn opd) s = .next { s with rspV := true, rsp := respond .length false 0#3 0#16 }) ∧
    (opd.extractLsb' 7 1 = 0#1 →
      exec (.syn opd) s =
        .next { s with rspV := true, rsp := respond .ok false 0#3 (zext16 (syndromeOf (opd.extractLsb' 0 7))) }) ∧
    (∀ m : Message, syndromeOf (encodeMessage m) = 0#3) ∧
    (∀ (m : Message) (p : ErrorPosition), p ≠ 0#3 → syndromeOf (encodeMessage m ^^^ flipMask p) = column 3 matH p.toNat) ∧
    syndromeOf 0x7F#7 = 0#3 ∧
    exec (decode 0x231#12) s = .next { s with rspV := true, rsp := 0x000002#24 }

/-- R132: COR. -/
def Obligations.CorAnswersCorrectedCodeword : Prop :=
  ∀ (opd : Operand) (s : State),
    decode (0x3#4 ++ opd) = .cor opd ∧
    (opd.extractLsb' 7 1 ≠ 0#1 → exec (.cor opd) s = .next { s with rspV := true, rsp := respond .length false 0#3 0#16 }) ∧
    (opd.extractLsb' 7 1 = 0#1 →
      exec (.cor opd) s =
        .next { s with
          rspV := true
          rsp := respond .ok false (correct (opd.extractLsb' 0 7) (syndromeOf (opd.extractLsb' 0 7))).pos
            ((zext16 (syndromeOf (opd.extractLsb' 0 7)) <<< 12) |||
              zext16 (correct (opd.extractLsb' 0 7) (syndromeOf (opd.extractLsb' 0 7))).cw) }) ∧
    (∀ (m : Message) (p : ErrorPosition),
      correct (encodeMessage m ^^^ flipMask p) (syndromeOf (encodeMessage m ^^^ flipMask p)) =
        { cw := encodeMessage m, pos := p }) ∧
    (∀ (m : Message) (e : Codeword), weight e = 2 →
      (correct (encodeMessage m ^^^ e) (syndromeOf (encodeMessage m ^^^ e))).cw ≠ encodeMessage m) ∧
    (∀ r : Codeword, isCodeword (correct r (syndromeOf r)).cw = true) ∧
    exec (decode 0x331#12) s = .next { s with rspV := true, rsp := 0x062033#24 }

/-- R133: DEC. -/
def Obligations.DecAnswersMessage : Prop :=
  ∀ (opd : Operand) (s : State),
    decode (0x4#4 ++ opd) = .dec opd ∧
    (opd.extractLsb' 7 1 ≠ 0#1 → exec (.dec opd) s = .next { s with rspV := true, rsp := respond .length false 0#3 0#16 }) ∧
    (opd.extractLsb' 7 1 = 0#1 →
      exec (.dec opd) s =
        .next { s with
          rspV := true
          rsp := respond .ok false (decodeCodeword (opd.extractLsb' 0 7)).pos
            ((zext16 (decodeCodeword (opd.extractLsb' 0 7)).syn <<< 12) |||
              zext16 (decodeCodeword (opd.extractLsb' 0 7)).msg) }) ∧
    exec (decode 0x400#12) s = .next { s with rspV := true, rsp := 0x000000#24 } ∧
    exec (decode 0x401#12) s = .next { s with rspV := true, rsp := 0x071000#24 } ∧
    exec (decode 0x440#12) s = .next { s with rspV := true, rsp := 0x013000#24 } ∧
    exec (decode 0x430#12) s = .next { s with rspV := true, rsp := 0x01300E#24 } ∧
    exec (decode 0x431#12) s = .next { s with rspV := true, rsp := 0x062006#24 }

/-- R166: SPLIT. -/
def Obligations.SplitAnswersTwoMessages : Prop :=
  ∀ (opd : Operand) (s : State),
    decode (0x5#4 ++ opd) = .split opd ∧
    exec (.split opd) s =
      .next { s with rspV := true, rsp := respond .ok false 0#3 (zext16 (opd.extractLsb' 4 4 ++ opd.extractLsb' 0 4)) } ∧
    zext16 (opd.extractLsb' 4 4 ++ opd.extractLsb' 0 4) = zext16 opd ∧
    exec (decode 0x500#12) s = .next { s with rspV := true, rsp := 0x000000#24 } ∧
    exec (decode 0x5FF#12) s = .next { s with rspV := true, rsp := 0x0000FF#24 } ∧
    exec (decode 0x548#12) s = .next { s with rspV := true, rsp := 0x000048#24 }

/-- R167: SPLIT_ENC. -/
def Obligations.SplitEncAnswersTwoCodewords : Prop :=
  ∀ (opd : Operand) (s : State),
    decode (0x6#4 ++ opd) = .splitEnc opd ∧
    exec (.splitEnc opd) s =
      .next { s with
        rspV := true
        rsp := respond .ok false 0#3
          ((zext16 (encodeMessage (opd.extractLsb' 4 4)) <<< 7) ||| zext16 (encodeMessage (opd.extractLsb' 0 4))) } ∧
    exec (decode 0x600#12) s = .next { s with rspV := true, rsp := 0x000000#24 } ∧
    exec (decode 0x6FF#12) s = .next { s with rspV := true, rsp := 0x003FFF#24 } ∧
    exec (decode 0x648#12) s = .next { s with rspV := true, rsp := 0x0012C3#24 }

/-- R168: JOIN. An erring JOIN leaves the pair where it was; two JOINs complete one byte. -/
def Obligations.JoinAssemblesByte : Prop :=
  ∀ (opd : Operand) (s : State),
    decode (0x8#4 ++ opd) = .join opd ∧
    (opd.extractLsb' 4 4 ≠ 0#4 → exec (.join opd) s = .next { s with rspV := true, rsp := respond .length false 0#3 0#16 }) ∧
    (opd.extractLsb' 4 4 = 0#4 → s.pendV = false →
      exec (.join opd) s =
        .next { s with pendV := true, pendN := opd.extractLsb' 0 4, rspV := true, rsp := respond .ok false 0#3 0#16 }) ∧
    (opd.extractLsb' 4 4 = 0#4 → s.pendV = true →
      exec (.join opd) s =
        .next { s with
          pendV := false
          pendN := 0x0#4
          rspV := true
          rsp := respond .ok true 0#3 (zext16 (s.pendN ++ opd.extractLsb' 0 4)) }) ∧
    (s.pendV = false →
      exec (decode 0x804#12) s = .next { s with pendV := true, pendN := 0x4#4, rspV := true, rsp := 0x000000#24 } ∧
      exec (decode 0x808#12) { s with pendV := true, pendN := 0x4#4 } =
        .next { s with pendV := false, pendN := 0x0#4, rspV := true, rsp := 0x200048#24 } ∧
      exec (decode 0x800#12) s = .next { s with pendV := true, pendN := 0x0#4, rspV := true, rsp := 0x000000#24 })

/-- R169: JOIN_DEC. -/
def Obligations.JoinDecAssemblesByte : Prop :=
  ∀ (opd : Operand) (s : State),
    decode (0x9#4 ++ opd) = .joinDec opd ∧
    (opd.extractLsb' 7 1 ≠ 0#1 →
      exec (.joinDec opd) s = .next { s with rspV := true, rsp := respond .length false 0#3 0#16 }) ∧
    (opd.extractLsb' 7 1 = 0#1 → s.pendV = false →
      exec (.joinDec opd) s =
        .next { s with
          pendV := true
          pendN := (decodeCodeword (opd.extractLsb' 0 7)).msg
          rspV := true
          rsp := respond .ok false (decodeCodeword (opd.extractLsb' 0 7)).pos
            ((zext16 (decodeCodeword (opd.extractLsb' 0 7)).syn <<< 12) |||
              (zext16 (decodeCodeword (opd.extractLsb' 0 7)).msg <<< 8)) }) ∧
    (opd.extractLsb' 7 1 = 0#1 → s.pendV = true →
      exec (.joinDec opd) s =
        .next { s with
          pendV := false
          pendN := 0x0#4
          rspV := true
          rsp := respond .ok true (decodeCodeword (opd.extractLsb' 0 7)).pos
            ((zext16 (decodeCodeword (opd.extractLsb' 0 7)).syn <<< 12) |||
              (zext16 (decodeCodeword (opd.extractLsb' 0 7)).msg <<< 8) |||
              zext16 (s.pendN ++ (decodeCodeword (opd.extractLsb' 0 7)).msg)) }) ∧
    (∀ (m : Message) (p : ErrorPosition), (decodeCodeword (encodeMessage m ^^^ flipMask p)).msg = m) ∧
    (s.pendV = false →
      exec (decode 0x925#12) s = .next { s with pendV := true, pendN := 0x4#4, rspV := true, rsp := 0x000400#24 } ∧
      exec (decode 0x941#12) { s with pendV := true, pendN := 0x4#4 } =
        .next { s with pendV := false, pendN := 0x0#4, rspV := true, rsp := 0x262848#24 })

/-- R170: END, in every state: also in one with `PEND_V = 0` and `PEND_N` non-zero it writes 0 to both ("in both branches"). -/
def Obligations.EndChecksLength : Prop :=
  ∀ (opd : Operand) (s : State),
    decode (0xA#4 ++ opd) = .endStream opd ∧
    (opd ≠ 0#8 → exec (.endStream opd) s = .next { s with rspV := true, rsp := respond .length false 0#3 0#16 }) ∧
    (s.pendV = true →
      exec (.endStream 0#8) s =
        .next { s with
          pendV := false
          pendN := 0x0#4
          rspV := true
          rsp := respond .length false 0#3 (zext16 (1#1 ++ s.pendN)) }) ∧
    (s.pendV = false →
      exec (.endStream 0#8) s =
        .next { s with pendV := false, pendN := 0x0#4, rspV := true, rsp := respond .ok false 0#3 0#16 }) ∧
    exec (decode 0xA00#12) { s with pendV := true, pendN := 0x0#4 } =
      .next { s with pendV := false, pendN := 0x0#4, rspV := true, rsp := 0x400010#24 } ∧
    exec (decode 0xA00#12) { s with pendV := true, pendN := 0x6#4 } =
      .next { s with pendV := false, pendN := 0x0#4, rspV := true, rsp := 0x400016#24 }

/-- R171: CLR. -/
def Obligations.ClrReportsAndEmpties : Prop :=
  ∀ (opd : Operand) (s : State),
    decode (0xB#4 ++ opd) = .clr opd ∧
    (opd ≠ 0#8 → exec (.clr opd) s = .next { s with rspV := true, rsp := respond .length false 0#3 0#16 }) ∧
    exec (.clr 0#8) s =
      .next { s with
        pendV := false
        pendN := 0x0#4
        rspV := true
        rsp := respond .ok false 0#3 (zext16 (BitVec.ofBool s.pendV ++ s.pendN)) } ∧
    exec (decode 0xB00#12) { s with pendV := false, pendN := 0x0#4 } =
      .next { s with pendV := false, pendN := 0x0#4, rspV := true, rsp := 0x000000#24 } ∧
    exec (decode 0xB00#12) { s with pendV := true, pendN := 0x9#4 } =
      .next { s with pendV := false, pendN := 0x0#4, rspV := true, rsp := 0x000019#24 }

/-- R202, R79: every reserved opcode, whatever its operand, answers `ERR_UNSUPPORTED` with nothing else in the response
(0x800000) and changes no state; and no other command answers it. -/
def Obligations.ReservedOpcodesAnswerUnsupported : Prop :=
  (∀ (opd : Operand) (s : State),
    exec (.reserved0 opd) s = .next { s with rspV := true, rsp := 0x800000#24 } ∧
    exec (.reserved7 opd) s = .next { s with rspV := true, rsp := 0x800000#24 } ∧
    exec (.reservedC opd) s = .next { s with rspV := true, rsp := 0x800000#24 } ∧
    exec (.reservedD opd) s = .next { s with rspV := true, rsp := 0x800000#24 } ∧
    exec (.reservedE opd) s = .next { s with rspV := true, rsp := 0x800000#24 } ∧
    exec (.reservedF opd) s = .next { s with rspV := true, rsp := 0x800000#24 }) ∧
  ∀ (i : Instr) (s t : State), exec i s = .next t →
    (rspErr t.rsp = 0b10#2 ↔ opcode i ∈ [0x0#4, 0x7#4, 0xC#4, 0xD#4, 0xE#4, 0xF#4])

/-! ### Whole-machine rules over every command -/

/-- R201: the cases of `ERR_LENGTH`, no other, and what the response records in each. -/
def Obligations.ErrLengthExactly : Prop :=
  ∀ (i : Instr) (s t : State), exec i s = .next t →
    (rspErr t.rsp = 0b01#2 ↔
      (opcode i ∈ [0x1#4, 0x8#4] ∧ i.operand.extractLsb' 4 4 ≠ 0#4) ∨
      (opcode i ∈ [0x2#4, 0x3#4, 0x4#4, 0x9#4] ∧ i.operand.extractLsb' 7 1 ≠ 0#1) ∨
      (opcode i ∈ [0xA#4, 0xB#4] ∧ i.operand ≠ 0#8) ∨
      (i = .endStream 0#8 ∧ s.pendV = true)) ∧
    (rspErr t.rsp = 0b01#2 → i ≠ .endStream 0#8 → rspData t.rsp = 0#16) ∧
    (i = .endStream 0#8 → s.pendV = true →
      (rspData t.rsp).getLsbD 4 = true ∧ (rspData t.rsp).extractLsb' 0 4 = s.pendN)

/-- R74, R200: the places of the response's fields; `ERR` is never 0b11 and `RSV` always 0; `BV` is 1 exactly when a JOIN or
JOIN_DEC completes a byte; `POS` is non-zero for COR, DEC and JOIN_DEC only. -/
def Obligations.ResponseFields : Prop :=
  (∀ (k : ErrKind) (bv : Bool) (pos : ErrorPosition) (data : Data),
    respond k bv pos data = k.code ++ BitVec.ofBool bv ++ 0b00#2 ++ pos ++ data ∧
    rspErr (respond k bv pos data) = k.code ∧ rspBv (respond k bv pos data) = BitVec.ofBool bv ∧
    rspPos (respond k bv pos data) = pos ∧ rspData (respond k bv pos data) = data) ∧
  (ErrKind.ok.code = 0b00#2 ∧ ErrKind.length.code = 0b01#2 ∧ ErrKind.unsupported.code = 0b10#2) ∧
  ∀ (i : Instr) (s t : State), exec i s = .next t →
    rspErr t.rsp ≠ 0b11#2 ∧ rspRsv t.rsp = 0#2 ∧
    (rspBv t.rsp = 1#1 ↔ s.pendV = true ∧ i.wellFormed = true ∧ opcode i ∈ [0x8#4, 0x9#4]) ∧
    (rspPos t.rsp ≠ 0#3 → opcode i ∈ [0x3#4, 0x4#4, 0x9#4])

/-- R75: the layout of the response to a command that succeeds, field by field; every `DATA` bit not listed is 0. -/
def Obligations.OkResponseLayout : Prop :=
  ∀ (s : State) (m : Message) (r : Codeword) (b : Byte),
    (∃ t, exec (.enc (m4Operand m)) s = .next t ∧ rspErr t.rsp = 0#2 ∧ rspPos t.rsp = 0#3 ∧ rspBv t.rsp = 0#1 ∧
      (rspData t.rsp).extractLsb' 0 7 = encodeMessage m ∧ (rspData t.rsp).extractLsb' 7 9 = 0#9) ∧
    (∃ t, exec (.syn (c7Operand r)) s = .next t ∧ rspErr t.rsp = 0#2 ∧ rspPos t.rsp = 0#3 ∧ rspBv t.rsp = 0#1 ∧
      (rspData t.rsp).extractLsb' 0 3 = syndromeOf r ∧ (rspData t.rsp).extractLsb' 3 13 = 0#13) ∧
    (∃ t, exec (.cor (c7Operand r)) s = .next t ∧ rspErr t.rsp = 0#2 ∧ rspPos t.rsp = synTab (syndromeOf r) ∧
      rspBv t.rsp = 0#1 ∧ (rspData t.rsp).extractLsb' 0 7 = (correct r (syndromeOf r)).cw ∧
      (rspData t.rsp).extractLsb' 7 5 = 0#5 ∧ (rspData t.rsp).extractLsb' 12 3 = syndromeOf r ∧
      (rspData t.rsp).extractLsb' 15 1 = 0#1) ∧
    (∃ t, exec (.dec (c7Operand r)) s = .next t ∧ rspErr t.rsp = 0#2 ∧ rspPos t.rsp = synTab (syndromeOf r) ∧
      rspBv t.rsp = 0#1 ∧ (rspData t.rsp).extractLsb' 0 4 = (decodeCodeword r).msg ∧
      (rspData t.rsp).extractLsb' 4 8 = 0#8 ∧ (rspData t.rsp).extractLsb' 12 3 = syndromeOf r ∧
      (rspData t.rsp).extractLsb' 15 1 = 0#1) ∧
    (∃ t, exec (.split b) s = .next t ∧ rspErr t.rsp = 0#2 ∧ rspPos t.rsp = 0#3 ∧ rspBv t.rsp = 0#1 ∧
      (rspData t.rsp).extractLsb' 4 4 = b.extractLsb' 4 4 ∧ (rspData t.rsp).extractLsb' 0 4 = b.extractLsb' 0 4 ∧
      (rspData t.rsp).extractLsb' 8 8 = 0#8) ∧
    (∃ t, exec (.splitEnc b) s = .next t ∧ rspErr t.rsp = 0#2 ∧ rspPos t.rsp = 0#3 ∧ rspBv t.rsp = 0#1 ∧
      (rspData t.rsp).extractLsb' 7 7 = encodeMessage (b.extractLsb' 4 4) ∧
      (rspData t.rsp).extractLsb' 0 7 = encodeMessage (b.extractLsb' 0 4) ∧ (rspData t.rsp).extractLsb' 14 2 = 0#2) ∧
    (∃ t, exec (.join (m4Operand m)) s = .next t ∧ rspErr t.rsp = 0#2 ∧ rspPos t.rsp = 0#3 ∧
      rspBv t.rsp = BitVec.ofBool s.pendV ∧
      (rspData t.rsp).extractLsb' 0 8 = (if s.pendV then s.pendN ++ m else 0#8) ∧
      (rspData t.rsp).extractLsb' 8 8 = 0#8) ∧
    (∃ t, exec (.joinDec (c7Operand r)) s = .next t ∧ rspErr t.rsp = 0#2 ∧ rspPos t.rsp = synTab (syndromeOf r) ∧
      rspBv t.rsp = BitVec.ofBool s.pendV ∧
      (rspData t.rsp).extractLsb' 0 8 = (if s.pendV then s.pendN ++ (decodeCodeword r).msg else 0#8) ∧
      (rspData t.rsp).extractLsb' 8 4 = (decodeCodeword r).msg ∧ (rspData t.rsp).extractLsb' 12 3 = syndromeOf r ∧
      (rspData t.rsp).extractLsb' 15 1 = 0#1) ∧
    (s.pendV = false → ∃ t, exec (.endStream 0#8) s = .next t ∧ t.rsp = 0#24) ∧
    (∃ t, exec (.clr 0#8) s = .next t ∧ rspErr t.rsp = 0#2 ∧ rspPos t.rsp = 0#3 ∧ rspBv t.rsp = 0#1 ∧
      (rspData t.rsp).getLsbD 4 = s.pendV ∧ (rspData t.rsp).extractLsb' 0 4 = s.pendN ∧
      (rspData t.rsp).extractLsb' 5 11 = 0#11)

/-- R76: in an error response `BV`, `RSV`, `POS` and `DATA` are 0, END with a pending message alone excepted. -/
def Obligations.ErrorResponsesAreZero : Prop :=
  ∀ (i : Instr) (s t : State), exec i s = .next t → rspErr t.rsp ≠ 0b00#2 →
    rspBv t.rsp = 0#1 ∧ rspRsv t.rsp = 0#2 ∧ rspPos t.rsp = 0#3 ∧
    (i ≠ .endStream 0#8 → rspData t.rsp = 0#16) ∧
    (i = .endStream 0#8 → rspErr t.rsp = 0b01#2 ∧ rspData t.rsp = zext16 (1#1 ++ s.pendN))

/-- R204, R205: the order of errors, and what each leaves of the adapter; a malformed END keeps the pending message. -/
def Obligations.ErrorPrecedenceAndEffect : Prop :=
  (∀ (i : Instr) (s t : State), exec i s = .next t →
    (i.kind = .reservedOpcode → rspErr t.rsp = 0b10#2) ∧
    (i.kind = .reservedBits → rspErr t.rsp = 0b01#2) ∧
    (i.kind ≠ .valid → t.pendV = s.pendV ∧ t.pendN = s.pendN ∧ rspBv t.rsp = 0#1 ∧ rspPos t.rsp = 0#3 ∧
      rspData t.rsp = 0#16) ∧
    (i.kind = .valid → rspErr t.rsp ≠ 0b00#2 → i = .endStream 0#8 ∧ s.pendV = true ∧ t.pendV = false ∧ t.pendN = 0#4) ∧
    (i.kind ≠ .valid → ∀ u, exec i t = .next u → u.rsp = t.rsp)) ∧
  ∀ (opd : Operand) (s : State), opd ≠ 0#8 → s.pendV = true →
    exec (.endStream opd) s = .next { s with rspV := true, rsp := 0x400000#24 }

/-- R203: no received codeword is ever reported as uncorrectable; `POS` names the bit the hardware flipped. -/
def Obligations.UncorrectableNeverReported : Prop :=
  ∀ (r : Codeword) (s : State),
    (∃ t, exec (.cor (c7Operand r)) s = .next t ∧ rspErr t.rsp = 0b00#2 ∧
      (rspData t.rsp).extractLsb' 0 7 = r ^^^ flipMask (rspPos t.rsp)) ∧
    (∃ t, exec (.dec (c7Operand r)) s = .next t ∧ rspErr t.rsp = 0b00#2 ∧ rspPos t.rsp = (decodeCodeword r).pos ∧
      (rspData t.rsp).extractLsb' 0 4 = (decodeCodeword r).msg) ∧
    (∃ t, exec (.joinDec (c7Operand r)) s = .next t ∧ rspErr t.rsp = 0b00#2 ∧ rspPos t.rsp = (decodeCodeword r).pos ∧
      (rspData t.rsp).extractLsb' 8 4 = (decodeCodeword r).msg)

/-- R60: ENC, SYN, COR, DEC, SPLIT and SPLIT_ENC answer the same in every state and write nothing but the response; the
second of two equal JOINs (JOIN_DECs) completes the byte the first began; END and CLR are idempotent after their first
execution; a malformed command has no side effect. -/
def Obligations.PureAndIdempotentCommands : Prop :=
  (∀ (i : Instr) (s s' : State), opcode i ∈ [0x1#4, 0x2#4, 0x3#4, 0x4#4, 0x5#4, 0x6#4] →
    ∃ r, exec i s = .next { s with rspV := true, rsp := r } ∧ exec i s' = .next { s' with rspV := true, rsp := r }) ∧
  (∀ (i : Instr) (s t u : State), i.wellFormed = true → opcode i ∈ [0x8#4, 0x9#4] → s.pendV = false →
    exec i s = .next t → exec i t = .next u → rspBv t.rsp = 0#1 ∧ rspBv u.rsp = 1#1 ∧ u.pendV = false ∧
      (rspData u.rsp).extractLsb' 0 8 = t.pendN ++ t.pendN) ∧
  (∀ (i : Instr) (s t u v : State), i = .endStream 0#8 ∨ i = .clr 0#8 →
    exec i s = .next t → exec i t = .next u → exec i u = .next v → u = v ∧ u.rsp = 0#24 ∧ u.adapter = Adapter.empty) ∧
  ∀ (i : Instr) (s t : State), i.kind ≠ .valid → exec i s = .next t → t = { s with rspV := true, rsp := t.rsp }

/-- R21, R22, R24: the frame of every command: it writes `RSP` and `RSP_V <- 1`, leaves the host's drive alone, and writes
`PEND_V` and `PEND_N` only if it is a JOIN, JOIN_DEC, END or CLR with valid operand bits. -/
def Obligations.OnlyStreamCommandsWriteAdapter : Prop :=
  ∀ (i : Instr) (s t : State), exec i s = .next t →
    t = { s with pendV := t.pendV, pendN := t.pendN, rspV := true, rsp := t.rsp } ∧
    (i.wellFormed = false ∨ opcode i ∉ [0x8#4, 0x9#4, 0xA#4, 0xB#4] → t.pendV = s.pendV ∧ t.pendN = s.pendN) ∧
    (i.wellFormed = true → opcode i ∈ [0x8#4, 0x9#4] → t.pendV = !s.pendV) ∧
    (i.wellFormed = true → opcode i ∈ [0xA#4, 0xB#4] → t.pendV = false ∧ t.pendN = 0#4)

/-- R217, R78, R24, R207: every command word has a next state, from every state, and no command reads `RSP` or `RSP_V`: the
machine has no stuck state, and the error of one command is invisible to every later one. -/
def Obligations.EveryWordAnsweredWhateverRspHolds : Prop :=
  (∀ (cmd : Command) (s : State), ∃ t, exec (decode cmd) s = .next t ∧ t.rspV = true) ∧
  ∀ (i : Instr) (s : State) (v : Bool) (r : Response), exec i { s with rspV := v, rsp := r } = exec i s

/-! ### The bitstream adapter (42_bitstream.md, 20_memory.md) -/

/-- R160, R53, R54: the adapter as a unit. The split half's two messages, element by element, which packing puts back; the join
half's operation codes, outputs, next state and reset. That an output its rules do not mention is 0 is the model's reading
(log entry 10). -/
def Obligations.AdapterUnit : Prop :=
  (∀ b : Byte,
    splitFirst b = b.extractLsb' 4 4 ∧ splitSecond b = b.extractLsb' 0 4 ∧
    (∀ i, 1 ≤ i → i ≤ 4 → element (splitFirst b) i = b.getLsbD (8 - i)) ∧
    (∀ i, 1 ≤ i → i ≤ 4 → element (splitSecond b) i = b.getLsbD (4 - i)) ∧
    packByte (splitFirst b) (splitSecond b) = b) ∧
  (∀ x y : Message, packByte x y = x ++ y ∧ splitFirst (packByte x y) = x ∧ splitSecond (packByte x y) = y) ∧
  (JoinOp.ofCode 0b00#2 = .join ∧ JoinOp.ofCode 0b01#2 = .endStream ∧ JoinOp.ofCode 0b10#2 = .clr ∧
    JoinOp.ofCode 0b11#2 = .idle ∧ ∀ op : JoinOp, JoinOp.ofCode op.code = op) ∧
  ∀ (op : JoinOp) (msg : Message) (a : Adapter),
    joinEdge true op msg a = Adapter.empty ∧
    joinEdge false op msg a = joinNext op msg a ∧
    (joinNext .idle msg a = a ∧ joinOutputs .idle msg a = JoinOut.zero) ∧
    (a.pendV = false → joinNext .join msg a = { pendV := true, pendN := msg } ∧ joinOutputs .join msg a = JoinOut.zero) ∧
    (a.pendV = true → joinNext .join msg a = Adapter.empty ∧ (joinOutputs .join msg a).bv = true ∧
      (joinOutputs .join msg a).byte = a.pendN ++ msg) ∧
    (joinNext .endStream msg a = Adapter.empty ∧ (joinOutputs .endStream msg a).errLen = a.pendV ∧
      (joinOutputs .endStream msg a).disc = a.pendV ∧ (a.pendV = true → (joinOutputs .endStream msg a).discMsg = a.pendN)) ∧
    (joinNext .clr msg a = Adapter.empty ∧ (joinOutputs .clr msg a).disc = a.pendV ∧
      (joinOutputs .clr msg a).discMsg = a.pendN ∧ (joinOutputs .clr msg a).errLen = false)

/-- R160, R235: at every edge the adapter's registers change exactly as the join half changes them when the wrapper drives
`rst`, `j_op` and `j_msg` from the edge and its decoded command. The value on `j_msg` with END, CLR and idle (log entry 14) and
`j_op` at an edge with `rst = 1` (log entry 15) are the model's choices and change nothing. -/
def Obligations.CoreDrivesJoinHalf : Prop :=
  ∀ (e : Edge) (s t : State), clockEdge e s = .next t →
    t.adapter = joinEdge e.rst (edgeDrive e).1 (edgeDrive e).2 s.adapter

/-- R161, R162, R163: the whole-buffer functions, place by place; an odd number of messages, and that alone, is a length
error. -/
def Obligations.SequenceFunctions : Prop :=
  (∀ (bs : List Byte), (toMessages bs).length = Config.msgsPerByte * bs.length ∧
    ∀ k, k < bs.length →
      (toMessages bs)[2 * k]? = (bs[k]?).map (fun b => b.extractLsb' 4 4) ∧
      (toMessages bs)[2 * k + 1]? = (bs[k]?).map (fun b => b.extractLsb' 0 4)) ∧
  (∀ (ms : List Message), ms.length % 2 = 1 ↔ fromMessages ms = .error .length) ∧
  (∀ (ms : List Message), ms.length % 2 = 0 → ∃ bs, fromMessages ms = .ok bs ∧ 2 * bs.length = ms.length ∧
    ∀ k a b, ms[2 * k]? = some a → ms[2 * k + 1]? = some b → bs[k]? = some (a ++ b)) ∧
  (∀ (ms : List Message) (k : Nat), (toCodewords ms)[k]? = (ms[k]?).map encodeMessage) ∧
  (∀ (rs : List Codeword) (k : Nat), (fromCodewords rs)[k]? = (rs[k]?).map fun r => (decodeCodeword r).msg)

/-- R164: both round trips. -/
def Obligations.RoundTrips : Prop :=
  (∀ bs : List Byte, fromMessages (toMessages bs) = .ok bs) ∧
  ∀ m : Message, (decodeCodeword (encodeMessage m)).msg = m

/-- R165 items 1 to 3: streams of SPLIT, ENC, DEC and SPLIT_ENC give the whole-buffer functions. R165 says so from an empty
adapter; these commands are pure (R60; R130, R133, R166, R167), so it holds from any state. -/
def Obligations.SplitAndCodecStreams : Prop :=
  (∀ (s : State) (bs : List Byte), ∃ rs t, acceptAll (bs.map fun b => encode (.split b)) s = .next (rs, t) ∧
    rs.flatMap (fun r => [(rspData r).extractLsb' 4 4, (rspData r).extractLsb' 0 4]) = toMessages bs) ∧
  (∀ (s : State) (ms : List Message), ∃ rs t, acceptAll (ms.map encWord) s = .next (rs, t) ∧
    rs.map (fun r => (rspData r).extractLsb' 0 7) = toCodewords ms) ∧
  (∀ (s : State) (cs : List Codeword), ∃ rs t, acceptAll (cs.map decWord) s = .next (rs, t) ∧
    rs.map (fun r => (rspData r).extractLsb' 0 4) = fromCodewords cs) ∧
  (∀ (s : State) (bs : List Byte), ∃ rs t, acceptAll (bs.map fun b => encode (.splitEnc b)) s = .next (rs, t) ∧
    rs.flatMap (fun r => [(rspData r).extractLsb' 7 7, (rspData r).extractLsb' 0 7]) = toCodewords (toMessages bs))

/-- R165 item 4: from an empty adapter, JOINs and an END give `FromMessages`: its bytes and OK for an even number of messages;
for an odd number the bytes of all but the last message, and `ERR_LENGTH` reporting the last. -/
def Obligations.JoinStreamIsFromMessages : Prop :=
  ∀ (s : State) (ms : List Message), s.pendV = false →
    ∃ rs r t, acceptAll (ms.map joinWord ++ [endWord]) s = .next (rs ++ [r], t) ∧
      rs.length = ms.length ∧ t.adapter = Adapter.empty ∧
      (ms.length % 2 = 0 → fromMessages ms = .ok (bytesOf rs) ∧ r = 0#24) ∧
      (ms.length % 2 = 1 → fromMessages ms = .error .length ∧ fromMessages ms.dropLast = .ok (bytesOf rs) ∧
        ∃ m, ms.getLast? = some m ∧ rspErr r = 0b01#2 ∧ rspData r = zext16 (1#1 ++ m))

/-- R165 item 5: the same for JOIN_DEC, with the decoded messages. -/
def Obligations.JoinDecStreamIsFromMessages : Prop :=
  ∀ (s : State) (cs : List Codeword), s.pendV = false →
    ∃ rs r t, acceptAll (cs.map joinDecWord ++ [endWord]) s = .next (rs ++ [r], t) ∧
      rs.length = cs.length ∧ t.adapter = Adapter.empty ∧
      (cs.length % 2 = 0 → fromMessages (fromCodewords cs) = .ok (bytesOf rs) ∧ r = 0#24) ∧
      (cs.length % 2 = 1 → fromMessages (fromCodewords cs) = .error .length ∧
        fromMessages (fromCodewords cs).dropLast = .ok (bytesOf rs) ∧
        ∃ m, (fromCodewords cs).getLast? = some m ∧ rspErr r = 0b01#2 ∧ rspData r = zext16 (1#1 ++ m))

/-- R128, R165, R241; 95_test_vectors.md section 4: any bytes, encoded to codewords, with at most one bit of each codeword
flipped anywhere, come back exact from a run of the clocked machine: reset, JOIN_DECs, END, every response OK. -/
def Obligations.NoisyBytesComeBack : Prop :=
  ∀ (draw : Nat) (bs : List Byte) (ps : List ErrorPosition), ps.length = (toCodewords (toMessages bs)).length →
    ∃ o, run draw ((withNoise (toCodewords (toMessages bs)) ps).map joinDecWord ++ [endWord]) = .next o ∧
      bytesOf o.responses = bs ∧ o.clean = true ∧ o.pendV = false ∧ o.pendN = 0#4

/-! ### The clock (70_reset_and_hazards.md, 10_state.md) -/

/-- R32, R230: the reset values, of `State.reset` and of the state after any edge with `rst = 1`, whatever `cmd_valid` and `cmd`
hold; `cmd_ready`; and the hardwired constants, which reset does not touch. -/
def Obligations.ResetValues : Prop :=
  (matG = generatorOf parityP ∧ matH = checkOf parityP ∧ matD = identityRows 4 ++ [0#4, 0#4, 0#4] ∧
    synTable = syndromeTableOf matH) ∧
  (State.reset.pendV = false ∧ State.reset.pendN = 0x0#4 ∧ State.reset.rspV = false ∧ State.reset.rsp = 0x000000#24) ∧
  (∀ e : Edge, e.cmdReady = !e.rst) ∧
  ∀ (e : Edge) (s : State), e.rst = true →
    ∃ t, clockEdge e s = .next t ∧ t.pendV = false ∧ t.pendN = 0x0#4 ∧ t.rspV = false ∧ t.rsp = 0x000000#24

/-- R230, R231, R232: at an edge with `rst = 1` no command is performed, whatever `cmd_valid` and `cmd` hold, in any state and
before any other reset too; one such edge is enough, and the next edge accepts a command from the reset values.
The premise that the host samples is log entry 3. -/
def Obligations.ResetEdgeTakesNoCommand : Prop :=
  ∀ (e : Edge) (cmd : Command) (es : List Edge) (s : State), e.rst = true → e.rspSampled = true →
    e.cmdReady = false ∧ e.accepts = false ∧
    step { s with inputs := e :: Edge.command cmd :: es } =
      .next { State.reset with inputs := Edge.command cmd :: es } ∧
    step { State.reset with inputs := Edge.command cmd :: es } = exec (decode cmd) { State.reset with inputs := es }

/-- R235, R70: what a rising edge does: reset, accepted command, idle. That a command runs only after a reset is the model's
guard (log entry 2). -/
def Obligations.EdgeBehaviour : Prop :=
  ∀ (e : Edge) (s : State),
    (e.rst = true →
      clockEdge e s =
        .next { s with pendV := false, pendN := 0x0#4, rspV := false, rsp := 0x000000#24, resetSeen := true }) ∧
    (e.rst = false → e.cmdValid = true → s.resetSeen = true → clockEdge e s = exec (decode e.cmd) s) ∧
    (e.rst = false → e.cmdValid = true → s.resetSeen = true →
      ∃ t, clockEdge e s = .next t ∧ t.rspV = true) ∧
    (e.rst = false → e.cmdValid = false → clockEdge e s = .next { s with rspV := false })

/-- R24, R216: an edge that accepts no command clears `RSP_V` and holds everything else; one that accepts a command loads
`RSP` with its response and `RSP_V` with 1. The second clause, past the host's listed drive, is the model's choice (log
entry 1). -/
def Obligations.IdleEdgeHolds : Prop :=
  (∀ s : State, skipsResponse s.presented s = false → s.presented.rst = false → s.presented.cmdValid = false →
    step s = .next { s with rspV := false, inputs := s.inputs.tail }) ∧
  (∀ s : State, s.inputs = [] → step s = .next { s with rspV := false }) ∧
  ∀ s u : State, s.resetSeen = true → skipsResponse s.presented s = false → s.presented.accepts = true →
    exec (decode s.presented.cmd) s.consume = .next u →
      ∃ t, step s = .next t ∧ t.rspV = true ∧ t.rsp = u.rsp

/-- A step runs the decoded command: where the next edge presents a command the core accepts, the step is `exec` of the
decoded command on the state whose drive has moved on by that edge, and nothing else (R70, R78, R235). -/
def Obligations.StepRunsDecodedCommand : Prop :=
  ∀ (s : State) (e : Edge) (es : List Edge) (i : Instr), s.inputs = e :: es → e.accepts = true → s.resetSeen = true →
    (s.rspV = true → e.rspSampled = true) → decode e.cmd = i → step s = exec i { s with inputs := es }

/-- `withFetchWord` presents the table's word at the next edge, and the next step runs exactly it (log entries 4, 11). -/
def Obligations.FetchWordRuns : Prop :=
  ∀ (s : State) (nbits w : Nat) (i : Instr), decodeTableWord nbits w = some i →
    step (s.withFetchWord nbits w) = exec i { s with resetSeen := true }

/-- R236: the response to an accepted command is offered after that edge (`RSP_LATENCY = 1`) and is replaced or withdrawn at
the next: by a reset, by the next command's response, or by an idle edge. -/
def Obligations.ResponseOfferedForOneCycle : Prop :=
  ∀ (cmd : Command) (e : Edge) (es : List Edge) (s : State),
    s.resetSeen = true → s.inputs = Edge.command cmd :: e :: es → e.rspSampled = true →
    ∃ t u, exec (decode cmd) s.consume = .next t ∧
      clockAll Config.rspLatency s = .next ([t.rsp], t) ∧ t.rspValid = true ∧ step t = .next u ∧
      (u.rspValid = e.accepts) ∧
      (e.accepts = true → exec (decode e.cmd) t.consume = .next u)

/-- R217, R33, R233, R240, R211: what the machine refuses and when, exactly: a response the host skipped, or a command before
any reset; nothing faults; and only `CODE = "standard"` is built. How the state holds this is the model's (log entries 2, 3,
6). -/
def Obligations.RefusalsExactly : Prop :=
  (∀ (s : State) (r : Refusal), step s = .refused r ↔
    (r = .responseSkipped ∧ s.resetSeen = true ∧ s.rspV = true ∧ s.presented.rspSampled = false) ∨
    (r = .startedWithoutReset ∧ s.resetSeen = false ∧ s.presented.rst = false ∧ s.presented.cmdValid = true)) ∧
  (∀ (s : State) (f : Fault), step s ≠ .fault f) ∧
  (∀ (code : String) (draw : Nat), code ≠ "standard" → elaborate code draw = .refused .codeNotSupported) ∧
  ∀ draw : Nat, elaborate "standard" draw = .next (State.powerOn draw)

/-- R23, under the guard "a reset has been applied" (the model's `resetSeen`, log entry 2; R33): `PEND_V = 0` implies
`PEND_N = 0`. Every step keeps the guarded invariant and every reset edge establishes the implication itself. The third
clause says nothing of the registers at power-on, which R33 leaves unspecified: there the guard is false. -/
def Obligations.AdapterInvariantKept : Prop :=
  (∀ s t : State, s.adapterInv = true → step s = .next t → t.adapterInv = true) ∧
  (∀ s t : State, step s = .next t → s.presented.rst = true → t.pendV = false ∧ t.pendN = 0#4 ∧ t.adapterInv = true) ∧
  (∀ draw : Nat, (State.powerOn draw).adapterInv = true) ∧
  (∀ (i : Instr) (s t : State), exec i s = .next t → t.adapter ≠ s.adapter → t.pendV = false → t.pendN = 0#4)

/-- R74, R200: once reset has been applied, `RSP` holds a legal word (`RSV = 0`, `ERR` not 0b11): kept by every step. -/
def Obligations.ResponseInvariantKept : Prop :=
  ∀ s t : State, s.responseInv = true → step s = .next t → t.responseInv = true

/-- Both invariants hold right after reset (R32). -/
def Obligations.InvariantsHoldAtReset : Prop :=
  State.reset.adapterInv = true ∧ State.reset.responseInv = true

/-- R63, R235, R241: from any state after a reset, the clocked machine under any drive without reset, with idle edges anywhere,
is observed to be exactly the fold of the commands it accepts, in acceptance order: one response per command, and the
final adapter. -/
def Obligations.ClockedMachineIsFold : Prop :=
  ∀ s : State, s.resetSeen = true → s.hostSamples = true → s.noReset = true →
    ∃ o, observeDrive s = .next o ∧ observe (acceptAll (acceptedCommands s.inputs) s) = .next o ∧
      o.responses.length = (acceptedCommands s.inputs).length

/-- R241, R33: the observation of a run from power-on is that of its commands from the reset state, whatever the power-on
values; so two power-ons cannot be told apart. -/
def Obligations.RunIsIndependentOfPowerOn : Prop :=
  ∀ (draw : Nat) (cmds : List Command),
    run draw cmds = observe (acceptAll cmds State.reset) ∧ ∃ o, run draw cmds = .next o
end

