-- ==== Sys2Proof/Laws/State.lean ====
section
/-! SUPPORT. One lemma per field per update of State, true by rfl, so that no proof unfolds a record update. -/

namespace Sys2Proof.Machine

variable (s : State) (r : Response) (a : Adapter) (cmd : Command)

@[simp] theorem answer_pendV : (s.answer r).pendV = s.pendV := rfl
@[simp] theorem answer_pendN : (s.answer r).pendN = s.pendN := rfl
@[simp] theorem answer_rspV : (s.answer r).rspV = true := rfl
@[simp] theorem answer_rsp : (s.answer r).rsp = r := rfl
@[simp] theorem answer_resetSeen : (s.answer r).resetSeen = s.resetSeen := rfl
@[simp] theorem answer_inputs : (s.answer r).inputs = s.inputs := rfl
@[simp] theorem answer_adapter : (s.answer r).adapter = s.adapter := rfl

@[simp] theorem setAdapter_pendV : (s.setAdapter a).pendV = a.pendV := rfl
@[simp] theorem setAdapter_pendN : (s.setAdapter a).pendN = a.pendN := rfl
@[simp] theorem setAdapter_rspV : (s.setAdapter a).rspV = s.rspV := rfl
@[simp] theorem setAdapter_rsp : (s.setAdapter a).rsp = s.rsp := rfl
@[simp] theorem setAdapter_resetSeen : (s.setAdapter a).resetSeen = s.resetSeen := rfl
@[simp] theorem setAdapter_inputs : (s.setAdapter a).inputs = s.inputs := rfl
@[simp] theorem setAdapter_adapter : (s.setAdapter a).adapter = a := rfl
@[simp] theorem setAdapter_self : s.setAdapter s.adapter = s := rfl

@[simp] theorem adapter_pendV : s.adapter.pendV = s.pendV := rfl
@[simp] theorem adapter_pendN : s.adapter.pendN = s.pendN := rfl
@[simp] theorem empty_pendV : Adapter.empty.pendV = false := rfl
@[simp] theorem empty_pendN : Adapter.empty.pendN = 0#4 := rfl

@[simp] theorem resetEdge_pendV : s.resetEdge.pendV = false := rfl
@[simp] theorem resetEdge_pendN : s.resetEdge.pendN = 0#4 := rfl
@[simp] theorem resetEdge_rspV : s.resetEdge.rspV = false := rfl
@[simp] theorem resetEdge_rsp : s.resetEdge.rsp = 0#24 := rfl
@[simp] theorem resetEdge_resetSeen : s.resetEdge.resetSeen = true := rfl
@[simp] theorem resetEdge_inputs : s.resetEdge.inputs = s.inputs := rfl
@[simp] theorem resetEdge_adapter : s.resetEdge.adapter = Adapter.empty := rfl

@[simp] theorem idleEdge_pendV : s.idleEdge.pendV = s.pendV := rfl
@[simp] theorem idleEdge_pendN : s.idleEdge.pendN = s.pendN := rfl
@[simp] theorem idleEdge_rspV : s.idleEdge.rspV = false := rfl
@[simp] theorem idleEdge_rsp : s.idleEdge.rsp = s.rsp := rfl
@[simp] theorem idleEdge_resetSeen : s.idleEdge.resetSeen = s.resetSeen := rfl
@[simp] theorem idleEdge_inputs : s.idleEdge.inputs = s.inputs := rfl
@[simp] theorem idleEdge_adapter : s.idleEdge.adapter = s.adapter := rfl

@[simp] theorem consume_pendV : s.consume.pendV = s.pendV := rfl
@[simp] theorem consume_pendN : s.consume.pendN = s.pendN := rfl
@[simp] theorem consume_rspV : s.consume.rspV = s.rspV := rfl
@[simp] theorem consume_rsp : s.consume.rsp = s.rsp := rfl
@[simp] theorem consume_resetSeen : s.consume.resetSeen = s.resetSeen := rfl
@[simp] theorem consume_inputs : s.consume.inputs = s.inputs.tail := rfl
@[simp] theorem consume_adapter : s.consume.adapter = s.adapter := rfl

@[simp] theorem presentFirst_pendV : (s.presentFirst cmd).pendV = s.pendV := rfl
@[simp] theorem presentFirst_pendN : (s.presentFirst cmd).pendN = s.pendN := rfl
@[simp] theorem presentFirst_rspV : (s.presentFirst cmd).rspV = s.rspV := rfl
@[simp] theorem presentFirst_rsp : (s.presentFirst cmd).rsp = s.rsp := rfl
@[simp] theorem presentFirst_resetSeen : (s.presentFirst cmd).resetSeen = true := rfl
@[simp] theorem presentFirst_inputs : (s.presentFirst cmd).inputs = Edge.command cmd :: s.inputs := rfl
@[simp] theorem presentFirst_presented : (s.presentFirst cmd).presented = Edge.command cmd := rfl

end Sys2Proof.Machine
end

