-- ==== Sys2Proof/Laws/Ops.lean ====
section
/-! SUPPORT. What the shared operations and `exec` can do, said once: every command answers, and writes at most the join half's
registers and the two response registers. -/

namespace Sys2Proof.Machine

theorem raiseError_eq (k : ErrKind) (s : State) : raiseError k s = .next (s.answer (respond k false 0#3 0#16)) := rfl

theorem respondOk_eq (pos : ErrorPosition) (data : Data) (s : State) :
    respondOk pos data s = .next (s.answer (respond .ok false pos data)) := rfl

theorem joinAndRespond_eq (op : JoinOp) (msg : Message) (f : JoinOut → Response) (s : State) :
    joinAndRespond op msg f s = .next ((s.setAdapter (joinNext op msg s.adapter)).answer (f (joinOutputs op msg s.adapter))) := rfl

/-- The join half emptied holds 0 (10_state.md R23). -/
theorem joinNext_inv (op : JoinOp) (msg : Message) (a : Adapter) (h : a.pendV = false → a.pendN = 0#4) :
    (joinNext op msg a).pendV = false → (joinNext op msg a).pendN = 0#4 := by
  cases op <;> simp only [joinNext] <;> first | exact h | (split <;> simp) | simp

/-- The answers a conditional error leaves: one shape for every command that checks its reserved bits. -/
theorem ite_shape {c : Bool} {s : State} {x y : Host.Outcome State Fault Refusal}
    (hx : ∃ a r, x = .next ((s.setAdapter a).answer r)) (hy : ∃ a r, y = .next ((s.setAdapter a).answer r)) :
    ∃ a r, (if c then x else y) = .next ((s.setAdapter a).answer r) := by
  split <;> assumption

theorem raiseError_shape (k : ErrKind) (s : State) : ∃ a r, raiseError k s = .next ((s.setAdapter a).answer r) :=
  ⟨s.adapter, _, rfl⟩

theorem respondOk_shape (pos : ErrorPosition) (data : Data) (s : State) :
    ∃ a r, respondOk pos data s = .next ((s.setAdapter a).answer r) := ⟨s.adapter, _, rfl⟩

theorem joinAndRespond_shape (op : JoinOp) (msg : Message) (f : JoinOut → Response) (s : State) :
    ∃ a r, joinAndRespond op msg f s = .next ((s.setAdapter a).answer r) := ⟨_, _, rfl⟩

/-- Everything `exec` can do: it answers, and leaves the host's drive and `resetSeen` alone. -/
theorem exec_shape (i : Instr) (s : State) : ∃ a r, exec i s = .next ((s.setAdapter a).answer r) := by
  cases i with
  | enc _ => exact ite_shape (raiseError_shape ..) (respondOk_shape ..)
  | syn _ => exact ite_shape (raiseError_shape ..) (respondOk_shape ..)
  | cor _ => exact ite_shape (raiseError_shape ..) (respondOk_shape ..)
  | dec _ => exact ite_shape (raiseError_shape ..) (respondOk_shape ..)
  | split _ => exact respondOk_shape ..
  | splitEnc _ => exact respondOk_shape ..
  | join _ => exact ite_shape (raiseError_shape ..) (joinAndRespond_shape ..)
  | joinDec _ => exact ite_shape (raiseError_shape ..) (joinAndRespond_shape ..)
  | endStream _ => exact ite_shape (raiseError_shape ..) (joinAndRespond_shape ..)
  | clr _ => exact ite_shape (raiseError_shape ..) (joinAndRespond_shape ..)
  | reserved0 _ => exact raiseError_shape ..
  | reserved7 _ => exact raiseError_shape ..
  | reservedC _ => exact raiseError_shape ..
  | reservedD _ => exact raiseError_shape ..
  | reservedE _ => exact raiseError_shape ..
  | reservedF _ => exact raiseError_shape ..

end Sys2Proof.Machine
end

