-- ==== Sys2Proof/Laws/Clock.lean ====
section
/-! SUPPORT. What one edge and one step can do, said once (70_reset_and_hazards.md R235). -/

namespace Sys2Proof.Machine

@[simp] theorem accepts_command (cmd : Command) : (Edge.command cmd).accepts = true := rfl
@[simp] theorem accepts_idle : Edge.idle.accepts = false := rfl
@[simp] theorem accepts_reset : Edge.reset.accepts = false := rfl

theorem presented_cons (e : Edge) (es : List Edge) (s : State) (h : s.inputs = e :: es) : s.presented = e := by
  simp [State.presented, h]

/-- A next state of an edge is that of a reset, of an idle edge, or of an accepted command. -/
theorem clockEdge_cases {e : Edge} {s t : State} (h : clockEdge e s = .next t) :
    (e.rst = true ∧ t = s.resetEdge) ∨
    (e.rst = false ∧ e.cmdValid = false ∧ t = s.idleEdge) ∨
    (e.rst = false ∧ e.cmdValid = true ∧ s.resetSeen = true ∧ exec (decode e.cmd) s = .next t) := by
  unfold clockEdge at h
  split at h
  · cases h; exact .inl ⟨‹_›, rfl⟩
  · split at h
    · split at h
      · exact .inr (.inr ⟨by simpa using ‹¬e.rst = true›, ‹_›, ‹_›, h⟩)
      · cases h
    · cases h; exact .inr (.inl ⟨by simpa using ‹¬e.rst = true›, by simpa using ‹¬e.cmdValid = true›, rfl⟩)

/-- A next state of a step: no response was skipped, and the edge was one of the three kinds. -/
theorem step_cases {s t : State} (h : step s = .next t) :
    skipsResponse s.presented s = false ∧ clockEdge s.presented s.consume = .next t := by
  unfold step clockStep at h
  split at h
  · cases h
  · exact ⟨eq_false_of_ne_true ‹_›, h⟩

end Sys2Proof.Machine
end

