-- ==== Sys2Proof/Laws/Decode.lean ====
section
/-! SUPPORT. The two fields of a command word (30_encoding.md R71). -/

namespace Sys2Proof

@[simp] theorem opField_append (op : BitVec 4) (opd : Operand) : opField (op ++ opd) = op := by
  unfold opField
  rw [BitVec.extractLsb'_append_eq_of_le (by decide)]
  simp

@[simp] theorem opdField_append (op : BitVec 4) (opd : Operand) : opdField (op ++ opd) = opd := by
  unfold opdField
  rw [BitVec.extractLsb'_append_eq_of_add_le (by decide)]
  simp

/-- A command word is its two fields. -/
theorem append_fields (cmd : Command) : opField cmd ++ opdField cmd = cmd :=
  (BitVec.extractLsb'_append_extractLsb'_eq_extractLsb' (start₁ := 0) (len₁ := 8) (len₂ := 4) (x := cmd) rfl).trans
    (BitVec.extractLsb'_eq_self)

end Sys2Proof
end

