-- ==== Sys2Proof/Laws/PerInstr.lean ====
section
/-! SUPPORT. The family EncodeFields, one lemma per constructor: the two fields of an encoded command are its opcode and its
operand (30_encoding.md R71). -/

namespace Sys2Proof.Laws.EncodeFields

/-- The fields of a command's word. -/
def Statement (i : Instr) : Prop := opField (encode i) = opcode i ∧ opdField (encode i) = i.operand

/-- The fields of any encoded command. -/
theorem fields (i : Instr) : Statement i := ⟨opField_append _ _, opdField_append _ _⟩

theorem enc (opd : Operand) : Statement (.enc opd) := fields _
theorem syn (opd : Operand) : Statement (.syn opd) := fields _
theorem cor (opd : Operand) : Statement (.cor opd) := fields _
theorem dec (opd : Operand) : Statement (.dec opd) := fields _
theorem split (opd : Operand) : Statement (.split opd) := fields _
theorem splitEnc (opd : Operand) : Statement (.splitEnc opd) := fields _
theorem join (opd : Operand) : Statement (.join opd) := fields _
theorem joinDec (opd : Operand) : Statement (.joinDec opd) := fields _
theorem endStream (opd : Operand) : Statement (.endStream opd) := fields _
theorem clr (opd : Operand) : Statement (.clr opd) := fields _
theorem reserved0 (opd : Operand) : Statement (.reserved0 opd) := fields _
theorem reserved7 (opd : Operand) : Statement (.reserved7 opd) := fields _
theorem reservedC (opd : Operand) : Statement (.reservedC opd) := fields _
theorem reservedD (opd : Operand) : Statement (.reservedD opd) := fields _
theorem reservedE (opd : Operand) : Statement (.reservedE opd) := fields _
theorem reservedF (opd : Operand) : Statement (.reservedF opd) := fields _

end Sys2Proof.Laws.EncodeFields
end

