-- ==== Sys2Proof/Laws/Response.lean ====
section
/-! SUPPORT. The fields of a response word built by `respond` (30_encoding.md R74), one lemma per field. -/

namespace Sys2Proof.Machine

variable (k : ErrKind) (bv : Bool) (pos : ErrorPosition) (data : Data)

@[simp] theorem rspErr_respond : rspErr (respond k bv pos data) = k.code := by
  unfold rspErr respond
  rw [BitVec.extractLsb'_append_eq_of_le (by decide), BitVec.extractLsb'_append_eq_of_le (by decide),
    BitVec.extractLsb'_append_eq_of_le (by decide), BitVec.extractLsb'_append_eq_of_le (by decide)]
  simp

@[simp] theorem rspBv_respond : rspBv (respond k bv pos data) = BitVec.ofBool bv := by
  unfold rspBv respond
  rw [BitVec.extractLsb'_append_eq_of_le (by decide), BitVec.extractLsb'_append_eq_of_le (by decide),
    BitVec.extractLsb'_append_eq_of_le (by decide), BitVec.extractLsb'_append_eq_of_add_le (by decide)]
  simp

@[simp] theorem rspRsv_respond : rspRsv (respond k bv pos data) = 0#2 := by
  unfold rspRsv respond
  rw [BitVec.extractLsb'_append_eq_of_le (by decide), BitVec.extractLsb'_append_eq_of_le (by decide),
    BitVec.extractLsb'_append_eq_of_add_le (by decide)]
  simp

@[simp] theorem rspPos_respond : rspPos (respond k bv pos data) = pos := by
  unfold rspPos respond
  rw [BitVec.extractLsb'_append_eq_of_le (by decide), BitVec.extractLsb'_append_eq_of_add_le (by decide)]
  simp

@[simp] theorem rspData_respond : rspData (respond k bv pos data) = data := by
  unfold rspData respond
  rw [BitVec.extractLsb'_append_eq_of_add_le (by decide)]
  simp

theorem code_ne_three : k.code ≠ 0b11#2 := by cases k <;> decide

end Sys2Proof.Machine
end

