-- ==== Sys2Proof/Tests/Slice0.lean ====
section
/-! SUPPORT. Tests and witnesses. Expected values are the spec's: 95_test_vectors.md (the section is named), the encodings of
30_encoding.md R77, the tables of 40_gf2_core.md. A test is one step or one function value. -/

namespace Sys2Proof.Tests

open Sys2Proof.Machine

/-- A state after reset with the given adapter and nothing offered. -/
def at' (v : Bool) (n : Message) : State := { State.reset with pendV := v, pendN := n }

/-- The next state of an outcome. -/
def nextOf (o : Host.Outcome State Fault Refusal) : Option State :=
  match o with
  | .next s => some s
  | .fault _ => none
  | .refused _ => none

/-- The response word and the adapter after an outcome. -/
def seen (o : Host.Outcome State Fault Refusal) : Option (Response × Bool × Message) :=
  (nextOf o).map fun s => (s.rsp, s.pendV, s.pendN)

/-- The refusal of an outcome. -/
def refusalOf (o : Host.Outcome State Fault Refusal) : Option Refusal :=
  match o with
  | .next _ => none
  | .fault _ => none
  | .refused r => some r

theorem next_of_nextOf {o : Host.Outcome State Fault Refusal} {s : State} (h : nextOf o = some s) : o = .next s := by
  cases o <;> simp_all [nextOf]

/-- The command of a word, run from an adapter. -/
def runWord (cmd : Command) (v : Bool) (n : Message) : Option (Response × Bool × Message) :=
  seen (exec (decode cmd) (at' v n))

/-! ### Decoding: one word per constructor, written bit by bit from R77 -/

theorem test_decode_enc : decode 0b000100000110#12 = .enc 0x06#8 := by decide
theorem test_decode_syn : decode 0b001000110001#12 = .syn 0x31#8 := by decide
theorem test_decode_cor : decode 0b001101111110#12 = .cor 0x7E#8 := by decide
theorem test_decode_dec : decode 0b010000110000#12 = .dec 0x30#8 := by decide
theorem test_decode_split : decode 0b010110100101#12 = .split 0xA5#8 := by decide
theorem test_decode_splitEnc : decode 0b011001001000#12 = .splitEnc 0x48#8 := by decide
theorem test_decode_join : decode 0b100000001000#12 = .join 0x08#8 := by decide
theorem test_decode_joinDec : decode 0b100101000001#12 = .joinDec 0x41#8 := by decide
theorem test_decode_end : decode 0b101000000000#12 = .endStream 0x00#8 := by decide
theorem test_decode_clr : decode 0b101100000000#12 = .clr 0x00#8 := by decide
theorem test_decode_reserved0 : decode 0b000000000000#12 = .reserved0 0x00#8 := by decide
theorem test_decode_reserved7 : decode 0b011111111111#12 = .reserved7 0xFF#8 := by decide
theorem test_decode_reservedC : decode 0b110000000001#12 = .reservedC 0x01#8 := by decide
theorem test_decode_reservedD : decode 0b110100010010#12 = .reservedD 0x12#8 := by decide
theorem test_decode_reservedE : decode 0b111010000000#12 = .reservedE 0x80#8 := by decide
theorem test_decode_reservedF : decode 0b111111111111#12 = .reservedF 0xFF#8 := by decide
theorem test_encode_joinDec : encode (.joinDec 0x41#8) = 0x941#12 := by decide
theorem test_table_word : decodeTableWord 16 0x431 = some (.dec 0x31#8) := by decide
theorem test_table_word_too_wide : decodeTableWord 16 0x1431 = none := by decide

/-! ### Well-formedness: an ill-formed term for each check -/

theorem test_wellFormed_enc : (Instr.enc 0x0F#8).wellFormed = true := by decide
theorem test_illFormed_m4 : (Instr.enc 0x10#8).wellFormed = false := by decide
theorem test_illFormed_c7 : (Instr.joinDec 0x80#8).wellFormed = false := by decide
theorem test_illFormed_z : (Instr.endStream 0x01#8).wellFormed = false := by decide
theorem test_wellFormed_b8 : (Instr.split 0xFF#8).wellFormed = true := by decide
theorem test_illFormed_reserved : (Instr.reserved7 0x00#8).wellFormed = false := by decide

/-! ### The commands: 95_test_vectors.md sections 2 and 3 -/

theorem test_enc_example : runWord 0x106#12 true 0x3#4 = some (0x000033#24, true, 0x3#4) := by decide
theorem test_enc_reserved_bits : runWord 0x1F6#12 true 0x5#4 = some (0x400000#24, true, 0x5#4) := by decide
theorem test_syn_example : runWord 0x231#12 false 0x0#4 = some (0x000002#24, false, 0x0#4) := by decide
theorem test_syn_reserved_bit : runWord 0x280#12 false 0x0#4 = some (0x400000#24, false, 0x0#4) := by decide
theorem test_cor_last_bit : runWord 0x37E#12 false 0x0#4 = some (0x07107F#24, false, 0x0#4) := by decide
theorem test_cor_example : runWord 0x331#12 true 0x3#4 = some (0x062033#24, true, 0x3#4) := by decide
theorem test_dec_two_errors : runWord 0x430#12 true 0x3#4 = some (0x01300E#24, true, 0x3#4) := by decide
theorem test_dec_example : runWord 0x431#12 false 0x0#4 = some (0x062006#24, false, 0x0#4) := by decide
theorem test_split_pending : runWord 0x5FF#12 true 0x7#4 = some (0x0000FF#24, true, 0x7#4) := by decide
theorem test_splitEnc_order : runWord 0x60F#12 false 0x0#4 = some (0x00007F#24, false, 0x0#4) := by decide
theorem test_splitEnc_example : runWord 0x669#12 false 0x0#4 = some (0x0019CC#24, false, 0x0#4) := by decide
theorem test_join_first_zero : runWord 0x800#12 false 0x0#4 = some (0x000000#24, true, 0x0#4) := by decide
theorem test_join_second : runWord 0x805#12 true 0xA#4 = some (0x2000A5#24, false, 0x0#4) := by decide
theorem test_joinDec_first : runWord 0x925#12 false 0x0#4 = some (0x000400#24, true, 0x4#4) := by decide
theorem test_joinDec_miscorrects : runWord 0x930#12 true 0x4#4 = some (0x213E4E#24, false, 0x0#4) := by decide
theorem test_end_pending_zero : runWord 0xA00#12 true 0x0#4 = some (0x400010#24, false, 0x0#4) := by decide
theorem test_end_malformed : runWord 0xA80#12 true 0x7#4 = some (0x400000#24, true, 0x7#4) := by decide
theorem test_clr_pending : runWord 0xB00#12 true 0x9#4 = some (0x000019#24, false, 0x0#4) := by decide
theorem test_clr_malformed : runWord 0xB01#12 true 0x7#4 = some (0x400000#24, true, 0x7#4) := by decide
theorem test_reserved0 : runWord 0x000#12 false 0x0#4 = some (0x800000#24, false, 0x0#4) := by decide
theorem test_reserved7 : runWord 0x7FF#12 true 0x5#4 = some (0x800000#24, true, 0x5#4) := by decide
theorem test_reservedC : runWord 0xC00#12 false 0x0#4 = some (0x800000#24, false, 0x0#4) := by decide
theorem test_reservedD : runWord 0xD12#12 false 0x0#4 = some (0x800000#24, false, 0x0#4) := by decide
theorem test_reservedE : runWord 0xE00#12 true 0x0#4 = some (0x800000#24, true, 0x0#4) := by decide
theorem test_reservedF : runWord 0xFFF#12 false 0x0#4 = some (0x800000#24, false, 0x0#4) := by decide

/-! ### The codec and the sequences: sections 1 and 2.1 to 2.4 -/

theorem test_matVec_all_ones : matVec 0xF#4 matG = 0x7F#7 := by decide
theorem test_transpose_column : column 3 matH 4 = 0b111#3 := by decide
theorem test_parity_bits_hit : decodeCodeword 0x34#7 = { msg := 0x7#4, pos := 4#3, syn := 0b111#3 } := by decide
theorem test_corrector_foreign_syndrome : correct 0x00#7 0b011#3 = { cw := 0x40#7, pos := 1#3 } := by decide
theorem test_hi_messages : toMessages [0x48#8, 0x69#8] = [0x4#4, 0x8#4, 0x6#4, 0x9#4] := by decide
theorem test_hi_back : fromMessages [0x4#4, 0x8#4, 0x6#4, 0x9#4] = .ok [0x48#8, 0x69#8] := by decide
theorem test_odd_messages : fromMessages [0x4#4, 0x8#4, 0x6#4] = .error .length := by decide

/-! ### The clock: section 2.8 -/

theorem test_edge1_reset_wins :
    nextOf (clockEdge { rst := true, cmdValid := true, cmd := 0x808#12, rspSampled := true } (at' true 0x7#4)) =
      some (at' false 0x0#4) := by decide

theorem test_edge3_idle :
    nextOf (step { at' true 0x4#4 with rspV := true, inputs := [Edge.idle] }) = some (at' true 0x4#4) := by decide

theorem test_edge4_join :
    nextOf (step { at' true 0x4#4 with inputs := [Edge.command 0x808#12] }) =
      some { at' false 0x0#4 with rspV := true, rsp := 0x200048#24 } := by decide

theorem test_fetch_word :
    seen (step (State.reset.withFetchWord 16 0x106)) = some (0x000033#24, false, 0x0#4) := by decide

theorem test_no_reset_refused :
    refusalOf (step { State.reset with resetSeen := false, inputs := [Edge.command 0x106#12] }) =
      some .startedWithoutReset := by decide

theorem test_skipped_response_refused :
    refusalOf (step { State.reset with rspV := true, inputs := [{ Edge.idle with rspSampled := false }] }) =
      some .responseSkipped := by decide

theorem test_other_code_refused : elaborate "(3,1,3)" 0 = .refused .codeNotSupported := by simp [elaborate, Config.codeText]

/-! ### The assembler: 30_encoding.md R84 to R86, 95_test_vectors.md section 3 -/

theorem test_asm_enc : assembleLine "enc 0b0110 ; E1".toList = .ok [0x106#12] := by decide
theorem test_asm_range : assembleLine "SYN 128".toList = .error .operandOutOfRange := by decide
theorem test_asm_end_operand : assembleLine "END 0".toList = .error .operandUnexpected := by decide
theorem test_asm_raw : assembleLine ".cmd 0x1F6".toList = .ok [0x1F6#12] := by decide
theorem test_asm_p2 :
    assembleText "DECODE_TO_BYTES 0x25, 0x41, 0x33, 0x0C".toList = .ok [0x925#12, 0x941#12, 0x933#12, 0x90C#12, 0xA00#12] := by
  decide
theorem test_disasm_enc : disassemble 0x106#12 = "ENC 0x6".toList := by decide
theorem test_disasm_dec : disassemble 0x405#12 = "DEC 0x05".toList := by decide
theorem test_disasm_raw : disassemble 0xA80#12 = ".cmd 0xA80".toList := by decide

/-! ### Witnesses: concrete values that meet the hypotheses of each statement, at the ends of their ranges -/

theorem test_witness_MatVecIsXorOfAnds :
    matG.length = 4 ∧ element (matVec 0b0110#4 matG) 1 = false ∧ element (matVec 0b0110#4 matG) 7 = true := by decide

theorem test_witness_EveryParityCandidateCorrectsOneFlip :
    [7#3, 6#3, 5#3, 3#3] ∈ parityCandidates ∧ tableEntry (syndromeTableOf (checkOf [7#3, 6#3, 5#3, 3#3])) 7#3 = 1#3 ∧ (1#3 : ErrorPosition) ≠ 0#3 ∧ (7#3 : ErrorPosition) ≠ 0#3 ∧
      (1#3 : ErrorPosition) ≠ 7#3 := by decide

theorem test_witness_EncoderEquations :
    element (encodeMessage 0b1000#4) 1 = true ∧ element (encodeMessage 0b0001#4) 4 = true := by decide

theorem test_witness_CorrectorFlipsNamedBit :
    synTab 0#3 = 0#3 ∧ synTab 1#3 ≠ 0#3 ∧ element (correct 0#7 3#3).cw 1 = true ∧ element (correct 0#7 1#3).cw 7 = true := by
  decide

theorem test_witness_SingleFlipRecovered :
    (decodeCodeword (0x33#7 ^^^ (1#7 <<< (7 - 1)))).pos = 1#3 ∧ (decodeCodeword (0x33#7 ^^^ (1#7 <<< (7 - 7)))).pos = 7#3 := by
  decide

theorem test_witness_TwoOrMoreFlipsNeverRecovered :
    weight 0b0000011#7 = 2 ∧ element (0b0000011#7 : Codeword) 7 = true ∧ weight 0x7F#7 = 7 := by decide

theorem test_witness_CodewordTable : (0x1#4 : Message) ≠ 0#4 ∧ weight (encodeMessage 0x2#4) = 3 := by decide

theorem test_witness_OperandFormsAndEncodingKinds :
    (decode 0x110#12).kind = .reservedBits ∧ (decode 0x280#12).kind = .reservedBits ∧
      (decode 0xA01#12).kind = .reservedBits ∧ (decode 0x10F#12).kind = .valid ∧ (decode 0x27F#12).kind = .valid ∧
      (decode 0xA00#12).kind = .valid ∧ (decode 0x7FF#12).kind = .reservedOpcode := by decide

theorem test_witness_OnlyRawDirectiveWritesInvalidWords :
    assembleLine "SPLIT 255".toList = .ok [0x5FF#12] ∧ lineName "SPLIT 255".toList ≠ ".CMD".toList := by decide

/-- The limits of each form met and passed, through whole lines, also where the operand would fit if its high bits were lost. -/
theorem test_witness_AssemblerRefusesOutOfRange :
    (10 : Nat) < 16 ^ (0 + 1) ∧ literalValue ['0', 'x', 'A'] = some 10 ∧ commandRows.all (fun row => row.name ≠ "") = true ∧
      assembleLine "JOIN 15".toList = .ok [0x80F#12] ∧ assembleLine "JOIN 16".toList = .error .operandOutOfRange ∧
      assembleLine "SPLIT 0x100".toList = .error .operandOutOfRange ∧
      assembleLine "CLR 1".toList = .error .operandUnexpected ∧
      assembleLine "FROM_CODEWORDS 127, 0b10000000".toList = .error .operandOutOfRange ∧
      assembleLine ".cmd 4095".toList = .ok [0xFFF#12] ∧ assembleLine ".cmd 0x1000".toList = .error .operandOutOfRange := by
  decide

theorem test_witness_PseudoInstructionsExpand :
    operandLimit Pseudo.decodeToBytes.form = some 127 ∧ (∀ x ∈ [127, 0], x ≤ 127) ∧
      assembleNamed Pseudo.decodeToBytes.name.toList [127, 0] = .ok [0x97F#12, 0x900#12, 0xA00#12] := by decide

theorem test_witness_m4_commands :
    (0x10#8 : Operand).extractLsb' 4 4 ≠ 0#4 ∧ (0x0F#8 : Operand).extractLsb' 4 4 = 0#4 ∧
      (at' false 0x0#4).pendV = false ∧ (at' true 0xF#4).pendV = true := by decide

theorem test_witness_c7_commands :
    (0x80#8 : Operand).extractLsb' 7 1 ≠ 0#1 ∧ (0x7F#8 : Operand).extractLsb' 7 1 = 0#1 := by decide

theorem test_witness_z_commands : (0x01#8 : Operand) ≠ 0#8 ∧ (0x80#8 : Operand) ≠ 0#8 := by decide

/-- A command that answers: the premise of the statements over `exec i s = .next t`. -/
theorem test_witness_exec_next :
    exec (.joinDec 0x7E#8) (at' true 0x3#4) = .next { at' false 0x0#4 with rspV := true, rsp := 0x271F3F#24 } :=
  next_of_nextOf (by decide)

theorem test_witness_reserved_next :
    exec (.reservedF 0xFF#8) (at' true 0x3#4) = .next { at' true 0x3#4 with rspV := true, rsp := 0x800000#24 } :=
  next_of_nextOf (by decide)

theorem test_witness_ErrLengthExactly :
    exec (.endStream 0#8) (at' true 0xF#4) = .next { at' false 0x0#4 with rspV := true, rsp := 0x40001F#24 } :=
  next_of_nextOf (by decide)

theorem test_witness_ErrorPrecedenceAndEffect :
    (Instr.endStream 0x80#8).kind = .reservedBits ∧
      nextOf (exec (.endStream 0x80#8) (at' true 0x7#4)) = some { at' true 0x7#4 with rspV := true, rsp := 0x400000#24 } ∧
      nextOf (exec (.endStream 0x80#8) { at' true 0x7#4 with rspV := true, rsp := 0x400000#24 }) =
        some { at' true 0x7#4 with rspV := true, rsp := 0x400000#24 } := by decide

theorem test_witness_PureAndIdempotentCommands :
    opcode (.splitEnc 0xFF#8) ∈ [0x1#4, 0x2#4, 0x3#4, 0x4#4, 0x5#4, 0x6#4] ∧
      (Instr.join 0x0F#8).wellFormed = true ∧ opcode (.join 0x0F#8) ∈ [0x8#4, 0x9#4] ∧
      nextOf (exec (.join 0x0F#8) (at' false 0x0#4)) = some { at' true 0xF#4 with rspV := true } ∧
      nextOf (exec (.join 0x0F#8) { at' true 0xF#4 with rspV := true }) =
        some { at' false 0x0#4 with rspV := true, rsp := 0x2000FF#24 } ∧
      nextOf (exec (.clr 0#8) (at' true 0xF#4)) = some { at' false 0x0#4 with rspV := true, rsp := 0x00001F#24 } ∧
      nextOf (exec (.clr 0#8) { at' false 0x0#4 with rspV := true, rsp := 0x00001F#24 }) =
        some { at' false 0x0#4 with rspV := true } ∧
      nextOf (exec (.clr 0#8) { at' false 0x0#4 with rspV := true }) = some { at' false 0x0#4 with rspV := true } := by decide

theorem test_witness_OnlyStreamCommandsWriteAdapter :
    (Instr.join 0x10#8).wellFormed = false ∧ (Instr.clr 0x00#8).wellFormed = true ∧ opcode (.clr 0x00#8) ∈ [0xA#4, 0xB#4] ∧
      opcode (.dec 0x00#8) ∉ [0x8#4, 0x9#4, 0xA#4, 0xB#4] := by decide

theorem test_witness_CoreDrivesJoinHalf :
    clockEdge (Edge.command 0x804#12) (at' false 0x0#4) = .next { at' true 0x4#4 with rspV := true } ∧
      clockEdge Edge.reset (at' true 0x4#4) = .next (at' false 0x0#4) ∧ clockEdge Edge.idle (at' true 0x4#4) = .next (at' true 0x4#4) :=
  ⟨next_of_nextOf (by decide), next_of_nextOf (by decide), next_of_nextOf (by decide)⟩

theorem test_witness_AdapterUnit :
    joinOutputs .join 0x8#4 { pendV := true, pendN := 0x4#4 } = { JoinOut.zero with bv := true, byte := 0x48#8 } ∧
      joinOutputs .endStream 0x0#4 { pendV := true, pendN := 0x6#4 } =
        { JoinOut.zero with disc := true, discMsg := 0x6#4, errLen := true } := by decide

theorem test_witness_SequenceFunctions :
    ([0x4#4, 0x8#4] : List Message).length % 2 = 0 ∧ ([0x4#4, 0x8#4] : List Message)[2 * 0]? = some 0x4#4 ∧
      ([0x4#4, 0x8#4] : List Message)[2 * 0 + 1]? = some 0x8#4 ∧ ([0x4#4] : List Message).length % 2 = 1 := by decide

theorem test_witness_streams : (State.reset).pendV = false ∧ ([0x6#4] : List Message).length % 2 = 1 := by decide

theorem test_witness_NoisyBytesComeBack :
    ([0#3, 6#3] : List ErrorPosition).length = (toCodewords (toMessages [0x48#8])).length ∧
      withNoise (toCodewords (toMessages [0x48#8])) [0#3, 6#3] = [0x25#7, 0x41#7] := by decide

theorem test_witness_resets : Edge.reset.rst = true ∧ Edge.reset.rspSampled = true := by decide

theorem test_witness_EdgeBehaviour :
    (Edge.command 0xFFF#12).rst = false ∧ (Edge.command 0xFFF#12).cmdValid = true ∧ Edge.idle.rst = false ∧
      Edge.idle.cmdValid = false ∧ State.reset.resetSeen = true := by decide

theorem test_witness_IdleEdgeHolds :
    skipsResponse State.reset.presented State.reset = false ∧ State.reset.presented.rst = false ∧
      State.reset.presented.cmdValid = false ∧ State.reset.inputs = [] ∧
      (State.reset.presentFirst 0x804#12).presented.accepts = true ∧
      nextOf (exec (decode 0x804#12) (State.reset.presentFirst 0x804#12).consume) =
        some { at' true 0x4#4 with rspV := true } := by decide

/-- A drive with a response offered and sampled, and a command accepted: the premises of StepRunsDecodedCommand. -/
theorem test_witness_StepRunsDecodedCommand :
    ({ State.reset with rspV := true, inputs := [Edge.command 0x106#12] } : State).inputs = Edge.command 0x106#12 :: [] ∧
      (Edge.command 0x106#12).accepts = true ∧ (Edge.command 0x106#12).rspSampled = true ∧
      decode (Edge.command 0x106#12).cmd = .enc 0x06#8 := by decide

theorem test_witness_FetchWordRuns : decodeTableWord 16 0xFFF = some (.reservedF 0xFF#8) := by decide

theorem test_witness_ResponseOfferedForOneCycle :
    ({ State.reset with inputs := [Edge.command 0x804#12, Edge.idle] } : State).inputs =
      Edge.command 0x804#12 :: Edge.idle :: [] ∧ Edge.idle.rspSampled = true ∧ Edge.idle.accepts = false := by decide

theorem test_witness_RefusalsExactly : ("Standard" : String) ≠ "standard" := by decide

theorem test_witness_invariants :
    State.reset.adapterInv = true ∧ (at' true 0x9#4).adapterInv = true ∧ (at' false 0x9#4).adapterInv = false ∧
      State.reset.responseInv = true ∧ ({ State.reset with rsp := 0xC00000#24 } : State).responseInv = false := by decide

theorem test_witness_invariant_steps :
    step { at' true 0x9#4 with inputs := [Edge.command 0xB00#12] } =
      .next { at' false 0x0#4 with rspV := true, rsp := 0x000019#24 } ∧
    step { at' true 0x9#4 with inputs := [Edge.reset] } = .next (at' false 0x0#4) :=
  ⟨next_of_nextOf (by decide), next_of_nextOf (by decide)⟩

theorem test_witness_ClockedMachineIsFold :
    ({ State.reset with inputs := [Edge.command 0x804#12, Edge.idle] } : State).hostSamples = true ∧
      ({ State.reset with inputs := [Edge.command 0x804#12, Edge.idle] } : State).noReset = true ∧
      acceptedCommands [Edge.command 0x804#12, Edge.idle] = [0x804#12] := by decide

end Sys2Proof.Tests
end

section
/-! PROOFS. The state's own statements (10_state.md): what reset, an idle edge and an accepted command do to the four
registers. Every command drives the join half as `joinDrive` says, so its effect on the adapter is one `joinNext`. -/

namespace Sys2Proof.Machine

/-! ### The edge and the step, one equation per kind of edge (70_reset_and_hazards.md R235) -/

section Edges

variable {e : Edge} {s t : State}

theorem clockEdge_of_rst (s : State) (hrst : e.rst = true) : clockEdge e s = .next s.resetEdge := by
  simp [clockEdge, hrst]

theorem clockEdge_of_idle (s : State) (hrst : e.rst = false) (hvalid : e.cmdValid = false) :
    clockEdge e s = .next s.idleEdge := by
  simp [clockEdge, hrst, hvalid]

theorem accepts_iff : e.accepts = true ↔ e.cmdValid = true ∧ e.rst = false := by
  simp [Edge.accepts, Edge.cmdReady]

theorem clockEdge_of_accepts (s : State) (haccepts : e.accepts = true) (hseen : s.resetSeen = true) :
    clockEdge e s = exec (decode e.cmd) s := by
  obtain ⟨hvalid, hrst⟩ := accepts_iff.mp haccepts
  simp [clockEdge, hrst, hvalid, hseen]

/-- Where no response is skipped, a step is the presented edge (R240). -/
theorem step_eq_clockEdge (hskip : skipsResponse s.presented s = false) :
    step s = clockEdge s.presented s.consume := by
  simp [step, clockStep, hskip]

/-- A step that takes a reset edge ends with the reset values (R230). -/
theorem step_reset_eq (hstep : step s = .next t) (hrst : s.presented.rst = true) : t = s.consume.resetEdge := by
  obtain ⟨-, hedge⟩ := step_cases hstep
  rw [clockEdge_of_rst _ hrst] at hedge
  cases hedge
  rfl

theorem presented_nil (hinputs : s.inputs = []) : s.presented = Edge.idle := by
  simp [State.presented, hinputs]

theorem consume_nil (hinputs : s.inputs = []) : s.consume = s := by
  obtain ⟨pendV, pendN, rspV, rsp, resetSeen, inputs⟩ := s
  cases hinputs
  rfl

theorem skipsResponse_idle (s : State) : skipsResponse Edge.idle s = false := by
  simp [skipsResponse, Edge.idle]

end Edges

/-! ### A command and the join half (42_bitstream.md R160) -/

/-- An outcome that answers from `s` and gives the join half one `joinNext` under the drive `d`. -/
def AnswersDriving (d : JoinOp × Message) (s : State) (o : Host.Outcome State Fault Refusal) : Prop :=
  ∃ r, o = .next ((s.setAdapter (joinNext d.1 d.2 s.adapter)).answer r)

section Driving

variable {d d' : JoinOp × Message} {s : State} {x y : Host.Outcome State Fault Refusal} {c : Bool}

theorem AnswersDriving.ite (hx : AnswersDriving d s x) (hy : AnswersDriving d' s y) :
    AnswersDriving (if c then d else d') s (if c then x else y) := by
  split <;> assumption

/-- A command that leaves the join half idle leaves it so on its error path too (60_exceptions.md R205). -/
theorem AnswersDriving.ite_same (hx : AnswersDriving d s x) (hy : AnswersDriving d s y) :
    AnswersDriving d s (if c then x else y) := by
  split <;> assumption

theorem raiseError_drives (k : ErrKind) (s : State) : AnswersDriving (.idle, 0#4) s (raiseError k s) := ⟨_, rfl⟩

theorem respondOk_drives (pos : ErrorPosition) (data : Data) (s : State) :
    AnswersDriving (.idle, 0#4) s (respondOk pos data s) := ⟨_, rfl⟩

theorem joinAndRespond_drives (op : JoinOp) (msg : Message) (f : JoinOut → Response) (s : State) :
    AnswersDriving (op, msg) s (joinAndRespond op msg f s) := ⟨_, rfl⟩

end Driving

/-- Every command answers, and drives the join half as the wrapper's `joinDrive` says (R160). -/
theorem exec_answersDriving (i : Instr) (s : State) : AnswersDriving (joinDrive i) s (exec i s) := by
  cases i with
  | enc _ => exact .ite_same (raiseError_drives ..) (respondOk_drives ..)
  | syn _ => exact .ite_same (raiseError_drives ..) (respondOk_drives ..)
  | cor _ => exact .ite_same (raiseError_drives ..) (respondOk_drives ..)
  | dec _ => exact .ite_same (raiseError_drives ..) (respondOk_drives ..)
  | split _ => exact respondOk_drives ..
  | splitEnc _ => exact respondOk_drives ..
  | join _ => exact .ite (raiseError_drives ..) (joinAndRespond_drives ..)
  | joinDec _ => exact .ite (raiseError_drives ..) (joinAndRespond_drives ..)
  | endStream _ => exact .ite (raiseError_drives ..) (joinAndRespond_drives ..)
  | clr _ => exact .ite (raiseError_drives ..) (joinAndRespond_drives ..)
  | reserved0 _ => exact raiseError_drives ..
  | reserved7 _ => exact raiseError_drives ..
  | reservedC _ => exact raiseError_drives ..
  | reservedD _ => exact raiseError_drives ..
  | reservedE _ => exact raiseError_drives ..
  | reservedF _ => exact raiseError_drives ..

/-- The next state of a command: one `joinNext` on the adapter and an answer. -/
theorem exec_next_eq {i : Instr} {s t : State} (hexec : exec i s = .next t) :
    ∃ r, t = (s.setAdapter (joinNext (joinDrive i).1 (joinDrive i).2 s.adapter)).answer r := by
  obtain ⟨r, hr⟩ := exec_answersDriving i s
  rw [hexec] at hr
  cases hr
  exact ⟨r, rfl⟩

/-! ### The operation a command drives, read off its opcode and its reserved bits (R21, R22, R81) -/

theorem wellFormed_of_form {i : Instr} {f : Form} (hform : i.form = some f) :
    i.wellFormed = !reservedSet f i.operand := by
  cases hres : reservedSet f i.operand <;> simp [Instr.wellFormed, Instr.kind, hform, hres]

/-- The join half's operation for a well-formed command with opcode `op` (the opcode map of 30_encoding.md R77). -/
def joinOpOfOpcode (op : BitVec 4) : JoinOp :=
  if op ∈ [0x8#4, 0x9#4] then .join
  else if op = 0xA#4 then .endStream
  else if op = 0xB#4 then .clr
  else .idle

theorem joinOpOfOpcode_of_not_stream {op : BitVec 4} (hop : op ∉ [0x8#4, 0x9#4, 0xA#4, 0xB#4]) :
    joinOpOfOpcode op = .idle := by
  simp_all [joinOpOfOpcode]

theorem joinOpOfOpcode_of_join {op : BitVec 4} (hop : op ∈ [0x8#4, 0x9#4]) : joinOpOfOpcode op = .join :=
  if_pos hop

theorem joinOpOfOpcode_of_discard {op : BitVec 4} (hop : op ∈ [0xA#4, 0xB#4]) :
    joinOpOfOpcode op = .endStream ∨ joinOpOfOpcode op = .clr := by
  obtain rfl | rfl : op = 0xA#4 ∨ op = 0xB#4 := by simpa using hop
  · exact .inl rfl
  · exact .inr rfl

/-- The operation of a drive that reserved bits hold idle. -/
theorem ite_idle_fst (reserved : Bool) (op : JoinOp) (msg : Message) :
    (if reserved then (JoinOp.idle, 0#4) else (op, msg)).1 = if !reserved then op else .idle := by
  cases reserved <;> rfl

/-- The operation half of `joinDrive`: a command that is not well formed leaves the join half idle. -/
theorem joinDrive_op (i : Instr) :
    (joinDrive i).1 = if i.wellFormed then joinOpOfOpcode (opcode i) else .idle := by
  cases i with
  | join opd => exact wellFormed_of_form (i := .join opd) rfl ▸ ite_idle_fst ..
  | joinDec opd => exact wellFormed_of_form (i := .joinDec opd) rfl ▸ ite_idle_fst ..
  | endStream opd => exact wellFormed_of_form (i := .endStream opd) rfl ▸ ite_idle_fst ..
  | clr opd => exact wellFormed_of_form (i := .clr opd) rfl ▸ ite_idle_fst ..
  | _ => exact (ite_self _).symm

/-! ### The join half's next state, by operation (R168, R170, R171) -/

@[simp] theorem joinNext_idle (msg : Message) (a : Adapter) : joinNext .idle msg a = a := rfl
@[simp] theorem joinNext_endStream (msg : Message) (a : Adapter) : joinNext .endStream msg a = Adapter.empty := rfl
@[simp] theorem joinNext_clr (msg : Message) (a : Adapter) : joinNext .clr msg a = Adapter.empty := rfl

@[simp] theorem joinNext_join_pendV (msg : Message) (a : Adapter) : (joinNext .join msg a).pendV = !a.pendV := by
  cases h : a.pendV <;> simp [joinNext, h]

/-- What the join half can do at an edge: hold, be emptied, or take a first message. -/
theorem joinNext_cases (op : JoinOp) (msg : Message) (a : Adapter) :
    joinNext op msg a = a ∨ joinNext op msg a = Adapter.empty ∨ (joinNext op msg a).pendV = true := by
  cases op with
  | join => cases h : a.pendV <;> simp [joinNext, h]
  | endStream => exact .inr (.inl rfl)
  | clr => exact .inr (.inl rfl)
  | idle => exact .inl rfl

/-! ### The adapter invariant (R23, R33) -/

theorem adapterInv_iff {s : State} :
    s.adapterInv = true ↔ (s.resetSeen = true → s.pendV = false → s.pendN = 0#4) := by
  cases hseen : s.resetSeen <;> cases hpend : s.pendV <;> simp [State.adapterInv, hseen, hpend]

theorem adapterInv_resetEdge (s : State) : s.resetEdge.adapterInv = true := by
  simp [adapterInv_iff]

theorem exec_keeps_adapterInv {i : Instr} {s t : State} (hinv : s.adapterInv = true) (hexec : exec i s = .next t) :
    t.adapterInv = true := by
  obtain ⟨r, rfl⟩ := exec_next_eq hexec
  exact adapterInv_iff.mpr fun hseen => joinNext_inv _ _ _ (adapterInv_iff.mp hinv hseen)

/-- The invariant does not read `RSP_V` or the host's drive. -/
theorem adapterInv_idleEdge (s : State) : s.idleEdge.adapterInv = s.adapterInv := rfl

theorem adapterInv_consume (s : State) : s.consume.adapterInv = s.adapterInv := rfl

theorem step_keeps_adapterInv {s t : State} (hinv : s.adapterInv = true) (hstep : step s = .next t) :
    t.adapterInv = true := by
  obtain ⟨-, hedge⟩ := step_cases hstep
  rw [← adapterInv_consume] at hinv
  obtain ⟨-, rfl⟩ | ⟨-, -, rfl⟩ | ⟨-, -, -, hexec⟩ := clockEdge_cases hedge
  · exact adapterInv_resetEdge _
  · rwa [adapterInv_idleEdge]
  · exact exec_keeps_adapterInv hinv hexec

/-- A command that changes the adapter and leaves `PEND_V = 0` has emptied it (R23). -/
theorem exec_changed_adapter_empty {i : Instr} {s t : State} (hexec : exec i s = .next t)
    (hchanged : t.adapter ≠ s.adapter) (hpend : t.pendV = false) : t.pendN = 0#4 := by
  obtain ⟨r, rfl⟩ := exec_next_eq hexec
  obtain hhold | hempty | hfirst := joinNext_cases (joinDrive i).1 (joinDrive i).2 s.adapter
  · exact absurd hhold hchanged
  · simp [hempty]
  · simp [hfirst] at hpend

/-! ### The statements -/

/-- Settles O55, over the three kinds of edge: the join half itself keeps the implication (`joinNext_inv`), and reset
establishes it. -/
theorem adapterInvariantKept : Obligations.AdapterInvariantKept := by
  refine ⟨fun s t => step_keeps_adapterInv, fun s t hstep hrst => ?_, fun draw => ?_,
    fun i s t => exec_changed_adapter_empty⟩
  · rw [step_reset_eq hstep hrst]
    exact ⟨rfl, rfl, adapterInv_resetEdge _⟩
  · exact adapterInv_iff.mpr fun hseen => by cases hseen

/-- Settles O37: a command's next state is one `joinNext` and an answer, and `joinDrive_op` names the operation. -/
theorem onlyStreamCommandsWriteAdapter : Obligations.OnlyStreamCommandsWriteAdapter := by
  intro i s t hexec
  obtain ⟨r, rfl⟩ := exec_next_eq hexec
  refine ⟨rfl, fun hidle => ?_, fun hwf hop => ?_, fun hwf hop => ?_⟩
  · have hdrive : (joinDrive i).1 = .idle := by
      rw [joinDrive_op]
      obtain hwf | hop := hidle
      · simp [hwf]
      · simp [joinOpOfOpcode_of_not_stream hop]
    simp [hdrive]
  · have hdrive : (joinDrive i).1 = .join := by
      rw [joinDrive_op, if_pos hwf, joinOpOfOpcode_of_join hop]
    simp [hdrive]
  · have hdrive : (joinDrive i).1 = .endStream ∨ (joinDrive i).1 = .clr := by
      rw [joinDrive_op, if_pos hwf]
      exact joinOpOfOpcode_of_discard hop
    obtain hend | hclr := hdrive
    · simp [hend]
    · simp [hclr]

/-- Settles O47: an edge with `rst = 1` is `resetEdge`, whatever the command port holds; the constants are evaluated. -/
theorem resetValues : Obligations.ResetValues := by
  refine ⟨by decide, ⟨rfl, rfl, rfl, rfl⟩, fun e => rfl, fun e s hrst => ?_⟩
  exact ⟨s.resetEdge, clockEdge_of_rst s hrst, rfl, rfl, rfl, rfl⟩

/-- Settles O50, by the kind of the presented edge; past the drive's end the edge is idle and skips nothing. -/
theorem idleEdgeHolds : Obligations.IdleEdgeHolds := by
  refine ⟨fun s hskip hrst hvalid => ?_, fun s hinputs => ?_, fun s u hseen hskip haccepts hexec => ?_⟩
  · rw [step_eq_clockEdge hskip, clockEdge_of_idle _ hrst hvalid]
    rfl
  · have hidle := presented_nil hinputs
    have hskip : skipsResponse s.presented s = false := hidle ▸ skipsResponse_idle s
    rw [step_eq_clockEdge hskip, hidle, consume_nil hinputs, clockEdge_of_idle s rfl rfl]
    rfl
  · have hstep : step s = .next u := by
      rw [step_eq_clockEdge hskip, clockEdge_of_accepts s.consume haccepts hseen, hexec]
    obtain ⟨r, rfl⟩ := exec_next_eq hexec
    exact ⟨_, hstep, rfl, rfl⟩

/-- Settles O57: the reset state has an empty adapter and the word 0 in `RSP`, and both invariants are decided there. -/
theorem invariantsHoldAtReset : Obligations.InvariantsHoldAtReset :=
  ⟨adapterInv_resetEdge State.reset, by decide⟩

end Sys2Proof.Machine
end

section
/-! PROOFS. The statements of 20_memory.md: which commands are pure or idempotent (R60), and the clocked machine as the fold of
the commands it accepts (R63). Both turn on one fact: a command reads nothing but the adapter. -/

namespace Sys2Proof.Machine

/-! ### What a command reads (R60, R63) -/

/-- A command's rule that answers one and the same response in every state, and writes nothing else. -/
def AnswersAlike (rule : State → Host.Outcome State Fault Refusal) : Prop :=
  ∃ r, ∀ s, rule s = .next (s.answer r)

/-- A command's rule whose response and whose effect on the adapter are functions of the adapter alone. -/
def AnswersFromAdapter (rule : State → Host.Outcome State Fault Refusal) : Prop :=
  ∃ (next : Adapter → Adapter) (response : Adapter → Response),
    ∀ s, rule s = .next ((s.setAdapter (next s.adapter)).answer (response s.adapter))

section Rules

variable {m m' : State → Host.Outcome State Fault Refusal} {c : Bool}

theorem AnswersAlike.ite (hm : AnswersAlike m) (hm' : AnswersAlike m') :
    AnswersAlike fun s => if c then m s else m' s := by
  cases c
  · exact hm'
  · exact hm

theorem AnswersFromAdapter.ite (hm : AnswersFromAdapter m) (hm' : AnswersFromAdapter m') :
    AnswersFromAdapter fun s => if c then m s else m' s := by
  cases c
  · exact hm'
  · exact hm

theorem AnswersAlike.fromAdapter (hm : AnswersAlike m) : AnswersFromAdapter m := by
  obtain ⟨r, hr⟩ := hm
  exact ⟨id, fun _ => r, hr⟩

theorem raiseError_alike (k : ErrKind) : AnswersAlike (raiseError k) := ⟨_, fun _ => rfl⟩

theorem respondOk_alike (pos : ErrorPosition) (data : Data) : AnswersAlike (respondOk pos data) := ⟨_, fun _ => rfl⟩

theorem joinAndRespond_fromAdapter (op : JoinOp) (msg : Message) (f : JoinOut → Response) :
    AnswersFromAdapter (joinAndRespond op msg f) :=
  ⟨joinNext op msg, fun a => f (joinOutputs op msg a), fun _ => rfl⟩

end Rules

/-- Every command but JOIN, JOIN_DEC, END and CLR answers alike in all states (R60; 60_exceptions.md R205). -/
theorem exec_answersAlike {i : Instr} (hop : opcode i ∉ [0x8#4, 0x9#4, 0xA#4, 0xB#4]) : AnswersAlike (exec i) := by
  cases i with
  | enc _ => exact .ite (raiseError_alike _) (respondOk_alike ..)
  | syn _ => exact .ite (raiseError_alike _) (respondOk_alike ..)
  | cor _ => exact .ite (raiseError_alike _) (respondOk_alike ..)
  | dec _ => exact .ite (raiseError_alike _) (respondOk_alike ..)
  | split _ => exact respondOk_alike ..
  | splitEnc _ => exact respondOk_alike ..
  | join _ | joinDec _ | endStream _ | clr _ => simp [opcode] at hop
  | reserved0 _ | reserved7 _ | reservedC _ | reservedD _ | reservedE _ | reservedF _ => exact raiseError_alike _

/-- No command reads anything but the adapter. -/
theorem exec_answersFromAdapter (i : Instr) : AnswersFromAdapter (exec i) := by
  cases i with
  | join _ => exact .ite (raiseError_alike _).fromAdapter (joinAndRespond_fromAdapter ..)
  | joinDec _ => exact .ite (raiseError_alike _).fromAdapter (joinAndRespond_fromAdapter ..)
  | endStream _ => exact .ite (raiseError_alike _).fromAdapter (joinAndRespond_fromAdapter ..)
  | clr _ => exact .ite (raiseError_alike _).fromAdapter (joinAndRespond_fromAdapter ..)
  | _ => exact (exec_answersAlike (by simp [opcode])).fromAdapter

/-- From two states with one adapter, a command answers the same and leaves one adapter. -/
theorem exec_of_adapter_eq (i : Instr) {s s' : State} (hadapter : s.adapter = s'.adapter) :
    ∃ a r, exec i s = .next ((s.setAdapter a).answer r) ∧ exec i s' = .next ((s'.setAdapter a).answer r) := by
  obtain ⟨next, response, hexec⟩ := exec_answersFromAdapter i
  exact ⟨_, _, hexec s, hadapter ▸ hexec s'⟩

/-! ### Malformed commands, JOIN pairs, END and CLR (R60) -/

theorem wellFormed_eq_false {i : Instr} (hkind : i.kind ≠ .valid) : i.wellFormed = false := by
  simpa [Instr.wellFormed] using hkind

/-- A command that is not well formed writes its response and nothing else (60_exceptions.md R205). -/
theorem exec_malformed {i : Instr} {s t : State} (hkind : i.kind ≠ .valid) (hexec : exec i s = .next t) :
    t = s.answer t.rsp := by
  obtain ⟨r, rfl⟩ := exec_next_eq hexec
  have hidle : (joinDrive i).1 = .idle := by simp [joinDrive_op, wellFormed_eq_false hkind]
  simp [hidle]

/-- A response made of the join half's outputs that reports the byte in `DATA[7:0]` and its presence in `BV`. -/
structure ReportsByte (f : JoinOut → Response) : Prop where
  bv (o : JoinOut) : rspBv (f o) = BitVec.ofBool o.bv
  byte (o : JoinOut) : (rspData (f o)).extractLsb' 0 8 = o.byte

theorem joinResponse_reportsByte : ReportsByte fun o => respond .ok o.bv 0#3 (zext16 o.byte) where
  bv o := rspBv_respond ..
  byte o := by
    rw [rspData_respond]
    ext j hj
    have hdata : j < 16 := by omega
    simp [zext16, hdata, BitVec.getLsbD_eq_getElem hj]

theorem joinDecResponse_reportsByte (d : Decoded) :
    ReportsByte fun o =>
      respond .ok o.bv d.pos ((zext16 d.syn <<< 12) ||| (zext16 d.msg <<< 8) ||| zext16 o.byte) where
  bv o := rspBv_respond ..
  byte o := by
    rw [rspData_respond]
    ext j hj
    have hsyn : j < 12 := by omega
    have hdata : j < 16 := by omega
    simp [zext16, hj, hsyn, hdata]

theorem reservedSet_eq_false {i : Instr} {f : Form} (hform : i.form = some f) (hwf : i.wellFormed = true) :
    reservedSet f i.operand = false := by
  simpa [wellFormed_of_form hform] using hwf

/-- A well-formed JOIN or JOIN_DEC gives the join half one message, the same in every state, and reports the byte
(42_bitstream.md R168, R169). -/
theorem exec_join {i : Instr} (hwf : i.wellFormed = true) (hop : opcode i ∈ [0x8#4, 0x9#4]) :
    ∃ msg f, ReportsByte f ∧ exec i = joinAndRespond .join msg f := by
  cases i with
  | join opd =>
    have hres : reservedSet .m4 opd = false := reservedSet_eq_false (i := .join opd) rfl hwf
    exact ⟨m4Message opd, _, joinResponse_reportsByte, funext fun s => if_neg (by simp [hres])⟩
  | joinDec opd =>
    have hres : reservedSet .c7 opd = false := reservedSet_eq_false (i := .joinDec opd) rfl hwf
    exact ⟨(decodeCodeword (c7Codeword opd)).msg, _, joinDecResponse_reportsByte (decodeCodeword (c7Codeword opd)),
      funext fun s => if_neg (by simp [hres])⟩
  | _ => simp [opcode] at hop

/-- The first JOIN from an empty adapter completes no byte and keeps its message; the second completes the byte. -/
theorem joinAndRespond_pair {msg : Message} {f : JoinOut → Response} {s t u : State} (hf : ReportsByte f)
    (hpend : s.pendV = false) (hfirst : joinAndRespond .join msg f s = .next t)
    (hsecond : joinAndRespond .join msg f t = .next u) :
    rspBv t.rsp = 0#1 ∧ rspBv u.rsp = 1#1 ∧ u.pendV = false ∧
      (rspData u.rsp).extractLsb' 0 8 = t.pendN ++ t.pendN := by
  cases hfirst
  cases hsecond
  simp [hf.bv, hf.byte, joinNext, joinOutputs, hpend, JoinOut.zero, packByte]

/-- END and CLR leave the adapter empty, whatever it held (42_bitstream.md R170, R171). -/
theorem exec_discard_adapter {i : Instr} {s t : State} (hi : i = .endStream 0#8 ∨ i = .clr 0#8)
    (hexec : exec i s = .next t) : t.adapter = Adapter.empty := by
  obtain ⟨r, rfl⟩ := exec_next_eq hexec
  obtain rfl | rfl := hi <;> rfl

/-- END: `ERR_LENGTH` with the discarded message when one is pending (42_bitstream.md R170). -/
theorem exec_endStream (s : State) :
    exec (.endStream 0#8) s = .next ((s.setAdapter Adapter.empty).answer
      (respond (if s.pendV then .length else .ok) false 0#3
        (zext16 (BitVec.ofBool s.pendV ++ if s.pendV then s.pendN else 0#4)))) := by
  cases hpend : s.pendV <;> simp [exec, execEnd, reservedSet, joinAndRespond_eq, joinOutputs, hpend, JoinOut.zero]

/-- CLR reports both registers (42_bitstream.md R171). -/
theorem exec_clr (s : State) :
    exec (.clr 0#8) s = .next ((s.setAdapter Adapter.empty).answer
      (respond .ok false 0#3 (zext16 (BitVec.ofBool s.pendV ++ s.pendN)))) := rfl

/-- On an empty adapter END and CLR answer the word 0 and change nothing else. -/
theorem exec_discard_of_empty {i : Instr} {s : State} (hi : i = .endStream 0#8 ∨ i = .clr 0#8)
    (hempty : s.adapter = Adapter.empty) : exec i s = .next (s.answer 0#24) := by
  have hself : s.setAdapter Adapter.empty = s := by rw [← hempty, setAdapter_self]
  obtain ⟨hpendV, hpendN⟩ := Adapter.mk.inj hempty
  obtain rfl | rfl := hi
  · rw [exec_endStream, hself, hpendV, hpendN]
    rfl
  · rw [exec_clr, hself, hpendV, hpendN]
    rfl

/-! ### The clocked machine beside the fold of its commands (R63, R235, R241) -/

/-- After a reset, the host's coming drive is `es`: it samples every response and does not reset. -/
structure DrivenBy (es : List Edge) (s : State) : Prop where
  inputs : s.inputs = es
  resetSeen : s.resetSeen = true
  sampled : ∀ e ∈ es, e.rspSampled = true
  noReset : ∀ e ∈ es, e.rst = false

section Driven

variable {e : Edge} {es : List Edge} {s s' t u : State}

theorem drivenBy_inputs (hseen : s.resetSeen = true) (hsamples : s.hostSamples = true) (hrst : s.noReset = true) :
    DrivenBy s.inputs s where
  inputs := rfl
  resetSeen := hseen
  sampled := by simpa [State.hostSamples] using hsamples
  noReset := by simpa [State.noReset] using hrst

theorem DrivenBy.tail (h : DrivenBy (e :: es) s) (hinputs : t.inputs = s.inputs.tail)
    (hseen : t.resetSeen = s.resetSeen) : DrivenBy es t where
  inputs := by rw [hinputs, h.inputs, List.tail_cons]
  resetSeen := hseen.trans h.resetSeen
  sampled e' he' := h.sampled e' (List.mem_cons_of_mem e he')
  noReset e' he' := h.noReset e' (List.mem_cons_of_mem e he')

/-- A step of a machine so driven is the edge at the head of the drive. -/
theorem DrivenBy.step_eq (h : DrivenBy (e :: es) s) : step s = clockEdge e s.consume := by
  have hpresented : s.presented = e := presented_cons e es s h.inputs
  have hskip : skipsResponse s.presented s = false := by
    simp [hpresented, skipsResponse, h.sampled e List.mem_cons_self]
  rw [step_eq_clockEdge hskip, hpresented]

/-- At an edge that accepts a command, the step and the bare command from a state with the same adapter answer alike. -/
theorem DrivenBy.step_accepts (h : DrivenBy (e :: es) s) (haccepts : e.accepts = true)
    (hadapter : s.adapter = s'.adapter) :
    ∃ a r, step s = .next ((s.consume.setAdapter a).answer r) ∧
      exec (decode e.cmd) s' = .next ((s'.setAdapter a).answer r) := by
  rw [h.step_eq, clockEdge_of_accepts s.consume haccepts h.resetSeen]
  exact exec_of_adapter_eq _ hadapter

theorem DrivenBy.step_idle (h : DrivenBy (e :: es) s) (haccepts : e.accepts = false) :
    step s = .next s.consume.idleEdge := by
  have hrst : e.rst = false := h.noReset e List.mem_cons_self
  have hvalid : e.cmdValid = false := by simpa [Edge.accepts, Edge.cmdReady, hrst] using haccepts
  rw [h.step_eq, clockEdge_of_idle _ hrst hvalid]

theorem clockAll_succ {n : Nat} {rs : List Response} (hstep : step s = .next t) (hrest : clockAll n t = .next (rs, u)) :
    clockAll (n + 1) s = .next (if t.rspValid then t.rsp :: rs else rs, u) := by
  simp [clockAll, hstep, hrest]

theorem acceptAll_cons {cmd : Command} {cmds : List Command} {rs : List Response} (hexec : exec (decode cmd) s = .next t)
    (hrest : acceptAll cmds t = .next (rs, u)) : acceptAll (cmd :: cmds) s = .next (t.rsp :: rs, u) := by
  simp [acceptAll, hexec, hrest]

theorem acceptedCommands_cons_accepts (haccepts : e.accepts = true) :
    acceptedCommands (e :: es) = e.cmd :: acceptedCommands es := by
  simp [acceptedCommands, haccepts]

theorem acceptedCommands_cons_idle (haccepts : e.accepts = false) :
    acceptedCommands (e :: es) = acceptedCommands es := by
  simp [acceptedCommands, haccepts]

end Driven

/-- The simulation: clocked machine `s` and fold `s'`, begun with the same adapter, answer the same responses and end with the
same adapter. An idle edge writes `RSP_V` only, which no command reads, so it moves the fold not at all. -/
theorem clockAll_simulates_acceptAll {es : List Edge} {s s' : State} (hdriven : DrivenBy es s)
    (hadapter : s.adapter = s'.adapter) :
    ∃ rs u u', clockAll es.length s = .next (rs, u) ∧ acceptAll (acceptedCommands es) s' = .next (rs, u') ∧
      u.adapter = u'.adapter ∧ rs.length = (acceptedCommands es).length := by
  induction es generalizing s s' with
  | nil => exact ⟨[], s, s', rfl, rfl, hadapter, rfl⟩
  | cons e es ih =>
    cases haccepts : e.accepts with
    | true =>
      obtain ⟨a, r, hstep, hexec⟩ := hdriven.step_accepts haccepts hadapter
      obtain ⟨rs, u, u', hclock, haccept, hfinal, hlength⟩ :=
        ih (hdriven.tail (t := (s.consume.setAdapter a).answer r) rfl rfl) (s' := (s'.setAdapter a).answer r) rfl
      rw [acceptedCommands_cons_accepts haccepts]
      exact ⟨r :: rs, u, u', clockAll_succ hstep hclock, acceptAll_cons hexec haccept, hfinal, congrArg (· + 1) hlength⟩
    | false =>
      obtain ⟨rs, u, u', hclock, haccept, hfinal, hlength⟩ :=
        ih (hdriven.tail (t := s.consume.idleEdge) rfl rfl) hadapter
      rw [acceptedCommands_cons_idle haccepts]
      exact ⟨rs, u, u', clockAll_succ (hdriven.step_idle haccepts) hclock, haccept, hfinal, hlength⟩

/-- What is observed of a state is its adapter. -/
theorem observe_congr {rs : List Response} {u u' : State} (hadapter : u.adapter = u'.adapter) :
    observe (.next (rs, u)) = observe (.next (rs, u')) := by
  obtain ⟨hpendV, hpendN⟩ := Adapter.mk.inj hadapter
  simp [observe, hpendV, hpendN]

/-! ### The statements -/

/-- Settles O36: the six commands answer alike in all states, the join half pairs two messages, and END and CLR leave an
adapter on which they answer 0 and change nothing. -/
theorem pureAndIdempotentCommands : Obligations.PureAndIdempotentCommands := by
  refine ⟨fun i s s' hop => ?_, fun i s t u hwf hop hpend hfirst hsecond => ?_, fun i s t u v hi ht hu hv => ?_,
    fun i s t hkind => exec_malformed hkind⟩
  · have hpure : opcode i ∉ [0x8#4, 0x9#4, 0xA#4, 0xB#4] := by
      revert hop
      generalize opcode i = op
      revert op
      decide
    obtain ⟨r, hexec⟩ := exec_answersAlike hpure
    exact ⟨r, hexec s, hexec s'⟩
  · obtain ⟨msg, f, hf, hrule⟩ := exec_join hwf hop
    rw [hrule] at hfirst hsecond
    exact joinAndRespond_pair hf hpend hfirst hsecond
  · have hu_eq : u = t.answer 0#24 :=
      Host.Outcome.next.inj (hu.symm.trans (exec_discard_of_empty hi (exec_discard_adapter hi ht)))
    have hv_eq : v = u.answer 0#24 :=
      Host.Outcome.next.inj (hv.symm.trans (exec_discard_of_empty hi (exec_discard_adapter hi hu)))
    refine ⟨?_, ?_, exec_discard_adapter hi hu⟩
    · rw [hv_eq, hu_eq]
      rfl
    · rw [hu_eq, answer_rsp]

/-- Settles O58, by the simulation of the clocked machine and the fold, both begun in `s`. -/
theorem clockedMachineIsFold : Obligations.ClockedMachineIsFold := by
  intro s hseen hsamples hrst
  obtain ⟨rs, u, u', hclock, haccept, hfinal, hlength⟩ :=
    clockAll_simulates_acceptAll (drivenBy_inputs hseen hsamples hrst) (s' := s) rfl
  refine ⟨{ responses := rs, pendV := u.pendV, pendN := u.pendN }, ?_, ?_, hlength⟩
  · rw [observeDrive, hclock, observe]
  · rw [haccept, ← observe_congr hfinal, observe]

end Sys2Proof.Machine
end

section
/-! PROOFS. The encoding statements of 30_encoding.md on words and commands: the decoder and the encoder are inverse (R71,
R77, R78), the operand forms and the three kinds of encoding (R72, R73, R81), and the step that runs the decoded command. -/

namespace Sys2Proof.Machine

open Sys2Proof.Laws (EncodeFields.fields)

/-! ### The decoder and the encoder (R71, R77, R78) -/

theorem decode_encode (i : Instr) : decode (encode i) = i := by
  obtain ⟨hop, hopd⟩ := EncodeFields.fields i
  unfold decode
  rw [hop, hopd]
  cases i <;> rfl

@[simp] theorem operand_decode (cmd : Command) : (decode cmd).operand = opdField cmd := by
  unfold decode
  split <;> rfl

/-- Each arm of the decoder stands for one value of `OP`, the last for 0xF: it is the only value left. -/
@[simp] theorem opcode_decode (cmd : Command) : opcode (decode cmd) = opField cmd := by
  unfold decode
  split
  case h_16 =>
    simp only [imp_false, opcode] at *
    bv_omega
  all_goals exact BitVec.eq_of_toNat_eq (Eq.symm ‹_›)

theorem encode_decode (cmd : Command) : encode (decode cmd) = cmd := by
  rw [encode, opcode_decode, operand_decode, append_fields]

/-! ### The operand forms (R72, R73) -/

theorem reservedSet_m4 (opd : Operand) :
    reservedSet .m4 opd = (opd.getLsbD 7 || opd.getLsbD 6 || opd.getLsbD 5 || opd.getLsbD 4) := by
  revert opd
  decide

theorem reservedSet_c7 (opd : Operand) : reservedSet .c7 opd = opd.getLsbD 7 := by
  revert opd
  decide

@[simp] theorem reservedSet_m4_iff {opd : Operand} : reservedSet .m4 opd = true ↔ opd.extractLsb' 4 4 ≠ 0#4 := bne_iff_ne
@[simp] theorem reservedSet_c7_iff {opd : Operand} : reservedSet .c7 opd = true ↔ opd.getLsbD 7 = true := by
  rw [reservedSet_c7]
@[simp] theorem reservedSet_b8 (opd : Operand) : reservedSet .b8 opd = false := rfl
@[simp] theorem reservedSet_z_iff {opd : Operand} : reservedSet .z opd = true ↔ opd ≠ 0#8 := bne_iff_ne

/-- Element `i` of the low `n` bits of an operand is its bit `n - i` (00_scope.md R9). -/
theorem element_extractLsb'_zero {opd : Operand} {n i : Nat} (hpos : 1 ≤ i) (hle : i ≤ n) :
    element (opd.extractLsb' 0 n) i = opd.getLsbD (n - i) := by
  have hindex : n - 1 - (i - 1) = n - i := by omega
  have hi : i - 1 < n := by omega
  have hbit : n - i < n := by omega
  simp [element, BitVec.getMsbD, hindex, hi, hbit]

/-! ### The kinds of encoding (R81) -/

section Kinds

variable {i : Instr} {f : Form}

theorem kind_of_form (hform : i.form = some f) :
    i.kind = if reservedSet f i.operand then .reservedBits else .valid := by
  simp [Instr.kind, hform]

theorem kind_eq_reservedOpcode_iff : i.kind = .reservedOpcode ↔ i.form = none := by
  cases hform : i.form with
  | none => simp [Instr.kind, hform]
  | some f => cases hres : reservedSet f i.operand <;> simp [kind_of_form hform, hres]

theorem kind_eq_reservedBits_iff (hform : i.form = some f) :
    i.kind = .reservedBits ↔ reservedSet f i.operand = true := by
  cases hres : reservedSet f i.operand <;> simp [kind_of_form hform, hres]

theorem kind_ne_reservedBits (hform : i.form = none) : i.kind ≠ .reservedBits := by
  simp [kind_eq_reservedOpcode_iff.mpr hform]

end Kinds

theorem form_eq_none_iff (i : Instr) :
    i.form = none ↔ opcode i ∈ [0x0#4, 0x7#4, 0xC#4, 0xD#4, 0xE#4, 0xF#4] := by
  cases i <;> simp [Instr.form, opcode]

/-- The kind 'reserved bits' by opcode: the opcode names the form (R77), and the form the bits that must be 0 (R72). -/
theorem kind_eq_reservedBits_iff_opcode (i : Instr) :
    i.kind = .reservedBits ↔
      (opcode i ∈ [0x1#4, 0x8#4] ∧ i.operand.extractLsb' 4 4 ≠ 0#4) ∨
      (opcode i ∈ [0x2#4, 0x3#4, 0x4#4, 0x9#4] ∧ i.operand.getLsbD 7 = true) ∨
      (opcode i ∈ [0xA#4, 0xB#4] ∧ i.operand ≠ 0#8) := by
  cases hform : i.form with
  | none =>
    have hop := (form_eq_none_iff i).mp hform
    cases i <;> simp [kind_ne_reservedBits hform, opcode] at hop ⊢
  | some f =>
    rw [kind_eq_reservedBits_iff hform]
    cases i <;> cases hform <;> simp [opcode, Instr.operand]

/-! ### A command that is not valid answers an error (R79, R80; 60_exceptions.md R204) -/

section Errors

variable {i : Instr}

theorem exec_of_reservedOpcode (hkind : i.kind = .reservedOpcode) (s : State) : exec i s = raiseError .unsupported s := by
  have hform := kind_eq_reservedOpcode_iff.mp hkind
  cases i with
  | reserved0 _ | reserved7 _ | reservedC _ | reservedD _ | reservedE _ | reservedF _ => rfl
  | _ => cases hform

theorem exec_of_reservedBits (hkind : i.kind = .reservedBits) (s : State) : exec i s = raiseError .length s := by
  cases i with
  | enc opd | syn opd | cor opd | dec opd | join opd | joinDec opd | endStream opd | clr opd =>
    exact if_pos ((kind_eq_reservedBits_iff rfl).mp hkind)
  | split opd | splitEnc opd => cases (kind_eq_reservedBits_iff rfl).mp hkind
  | _ => exact absurd hkind (kind_ne_reservedBits rfl)

end Errors

/-! ### A step at an accepted command (R70, R78, R235) -/

theorem step_of_accepts {s : State} {e : Edge} {es : List Edge} (hinputs : s.inputs = e :: es)
    (haccepts : e.accepts = true) (hseen : s.resetSeen = true) (hsampled : s.rspV = true → e.rspSampled = true) :
    step s = exec (decode e.cmd) { s with inputs := es } := by
  have hpresented := presented_cons e es s hinputs
  have hskip : skipsResponse s.presented s = false := by
    cases hoffered : s.rspV <;> simp_all [skipsResponse]
  have hconsume : s.consume = { s with inputs := es } := by simp [State.consume, hinputs]
  rw [step_eq_clockEdge hskip, hpresented, clockEdge_of_accepts s.consume haccepts hseen, hconsume]

theorem step_presentFirst (s : State) (cmd : Command) :
    step (s.presentFirst cmd) = exec (decode cmd) { s with resetSeen := true } := by
  rw [step_of_accepts (presentFirst_inputs s cmd) (accepts_command cmd) rfl fun _ => rfl]
  rfl

theorem decode_of_decodeTableWord {nbits w : Nat} {i : Instr} (hword : decodeTableWord nbits w = some i) :
    decode (BitVec.ofNat 12 (w % 2 ^ nbits)) = i := by
  unfold decodeTableWord tableWord at hword
  split at hword
  · exact Option.some.inj hword
  · cases hword

/-! ### The statements -/

/-- Settles O13: the two fields of `encode i` select `i` again, and a word is its two fields. -/
theorem decodeEncodeAgree : Obligations.DecodeEncodeAgree :=
  ⟨decode_encode, encode_decode⟩

/-- Settles O12: each word of the table is the encoding of its command. -/
theorem opcodeMap : Obligations.OpcodeMap := fun opd =>
  ⟨⟨decode_encode (.enc opd), rfl⟩, ⟨decode_encode (.syn opd), rfl⟩, ⟨decode_encode (.cor opd), rfl⟩,
    ⟨decode_encode (.dec opd), rfl⟩, ⟨decode_encode (.split opd), rfl⟩, ⟨decode_encode (.splitEnc opd), rfl⟩,
    ⟨decode_encode (.join opd), rfl⟩, ⟨decode_encode (.joinDec opd), rfl⟩, ⟨decode_encode (.endStream opd), rfl⟩,
    ⟨decode_encode (.clr opd), rfl⟩, ⟨decode_encode (.reserved0 opd), rfl⟩, ⟨decode_encode (.reserved7 opd), rfl⟩,
    ⟨decode_encode (.reservedC opd), rfl⟩, ⟨decode_encode (.reservedD opd), rfl⟩, ⟨decode_encode (.reservedE opd), rfl⟩,
    ⟨decode_encode (.reservedF opd), rfl⟩⟩

/-- Settles O14: twelve words, each decoded. -/
theorem specWordsDecode : Obligations.SpecWordsDecode := by
  unfold Obligations.SpecWordsDecode
  decide

/-- Settles O15: the forms bit by bit, and the kind of a word read off the decoded command's opcode and operand. -/
theorem operandFormsAndEncodingKinds : Obligations.OperandFormsAndEncodingKinds := by
  refine ⟨fun opd => ⟨reservedSet_m4 opd, reservedSet_c7 opd, rfl, ?_, ?_, ?_, rfl⟩, fun cmd => ⟨?_, ?_, ?_⟩⟩
  · exact Bool.eq_iff_iff.mpr (reservedSet_z_iff.trans decide_eq_true_iff.symm)
  · exact fun i => element_extractLsb'_zero
  · exact fun i => element_extractLsb'_zero
  · rw [kind_eq_reservedOpcode_iff, form_eq_none_iff, opcode_decode]
  · rw [kind_eq_reservedBits_iff_opcode, opcode_decode, operand_decode]
  · exact fun s hkind => exec_of_reservedBits hkind s

/-- Settles O51: an accepted command's edge is taken off the drive and runs the decoded command. -/
theorem stepRunsDecodedCommand : Obligations.StepRunsDecodedCommand := by
  rintro s e es i hinputs haccepts hseen hsampled rfl
  exact step_of_accepts hinputs haccepts hseen hsampled

/-- Settles O52: the table's word is presented, sampled and accepted at the next edge. -/
theorem fetchWordRuns : Obligations.FetchWordRuns := by
  intro s nbits w i hword
  rw [State.withFetchWord, step_presentFirst, decode_of_decodeTableWord hword]

end Sys2Proof.Machine
end

section
/-! PROOFS. The response word's statements of 30_encoding.md (R74 to R76): its fields, the layout of a response with
`ERR = OK`, and what is 0 in an error response. One inversion lemma (`exec_rsp_cases`) says which words a command can answer. -/

namespace Sys2Proof.Machine

/-! ### What a valid command answers (R74, R81) -/

/-- A JOIN or JOIN_DEC that finds a pending message. -/
def completesByte (i : Instr) (s : State) : Bool := decide (opcode i ∈ [0x8#4, 0x9#4]) && s.pendV

/-- An outcome with `ERR = OK`, whose `BV` is 1 where `i` completes a byte, and whose `POS` is 0 except for COR, DEC and
JOIN_DEC. -/
def AnswersOk (i : Instr) (s : State) (o : Host.Outcome State Fault Refusal) : Prop :=
  ∃ a pos data, o = .next ((s.setAdapter a).answer (respond .ok (completesByte i s) pos data)) ∧
    (pos ≠ 0#3 → opcode i ∈ [0x3#4, 0x4#4, 0x9#4])

section Answers

variable {i : Instr} {s : State} {x y : Host.Outcome State Fault Refusal}

theorem ofBool_eq_one_iff {b : Bool} : BitVec.ofBool b = 1#1 ↔ b = true := by
  cases b <;> simp

theorem completesByte_of_not_join (hop : opcode i ∉ [0x8#4, 0x9#4]) : completesByte i s = false := by
  simp [completesByte, hop]

/-- Valid operand bits take a command past its reserved-bit check. -/
theorem AnswersOk.ite {f : Form} (hform : i.form = some f) (hvalid : i.wellFormed = true) (hy : AnswersOk i s y) :
    AnswersOk i s (if reservedSet f i.operand then x else y) := by
  simpa [reservedSet_eq_false hform hvalid] using hy

theorem respondOk_answersOk {pos : ErrorPosition} {data : Data} (hop : opcode i ∉ [0x8#4, 0x9#4])
    (hpos : pos ≠ 0#3 → opcode i ∈ [0x3#4, 0x4#4, 0x9#4]) : AnswersOk i s (respondOk pos data s) :=
  ⟨s.adapter, pos, data, by rw [completesByte_of_not_join hop]; rfl, hpos⟩

theorem joinOutputs_join_bv (msg : Message) (s : State) : (joinOutputs .join msg s.adapter).bv = s.pendV := by
  cases h : s.pendV <;> simp [joinOutputs, h, JoinOut.zero]

theorem joinOutputs_join_byte (msg : Message) (s : State) :
    (joinOutputs .join msg s.adapter).byte = if s.pendV then s.pendN ++ msg else 0#8 := by
  cases h : s.pendV <;> simp [joinOutputs, h, JoinOut.zero, packByte]

theorem join_answersOk {msg : Message} {pos : ErrorPosition} {data : JoinOut → Data} (hop : opcode i ∈ [0x8#4, 0x9#4])
    (hpos : pos ≠ 0#3 → opcode i ∈ [0x3#4, 0x4#4, 0x9#4]) :
    AnswersOk i s (joinAndRespond .join msg (fun o => respond .ok o.bv pos (data o)) s) := by
  refine ⟨joinNext .join msg s.adapter, pos, data (joinOutputs .join msg s.adapter), ?_, hpos⟩
  simp [joinAndRespond_eq, joinOutputs_join_bv, completesByte, hop]

theorem clr_answersOk (s : State) : AnswersOk (.clr 0#8) s (exec (.clr 0#8) s) := by
  refine ⟨Adapter.empty, 0#3, zext16 (BitVec.ofBool s.pendV ++ s.pendN), ?_, absurd rfl⟩
  rw [exec_clr, completesByte_of_not_join (by simp [opcode])]

theorem exec_endStream_of_pending (hpend : s.pendV = true) :
    exec (.endStream 0#8) s = .next ((s.setAdapter Adapter.empty).answer
      (respond .length false 0#3 (zext16 (1#1 ++ s.pendN)))) := by
  simp [exec_endStream, hpend]

theorem exec_endStream_of_not_pending (hpend : s.pendV = false) :
    exec (.endStream 0#8) s = .next ((s.setAdapter Adapter.empty).answer (respond .ok false 0#3 0#16)) := by
  simp [exec_endStream, hpend, zext16]

theorem operand_eq_zero_of_wellFormed (hform : i.form = some .z) (hvalid : i.wellFormed = true) : i.operand = 0#8 := by
  simpa [reservedSet] using reservedSet_eq_false hform hvalid

/-- END alone, of the well-formed commands, can answer an error (60_exceptions.md R201). -/
theorem exec_wellFormed (hvalid : i.wellFormed = true) (s : State) :
    i = .endStream 0#8 ∨ AnswersOk i s (exec i s) := by
  cases i with
  | enc _ => exact .inr (.ite rfl hvalid (respondOk_answersOk (by simp [opcode]) (absurd rfl)))
  | syn _ => exact .inr (.ite rfl hvalid (respondOk_answersOk (by simp [opcode]) (absurd rfl)))
  | cor _ => exact .inr (.ite rfl hvalid (respondOk_answersOk (by simp [opcode]) (by simp [opcode])))
  | dec _ => exact .inr (.ite rfl hvalid (respondOk_answersOk (by simp [opcode]) (by simp [opcode])))
  | split _ => exact .inr (respondOk_answersOk (by simp [opcode]) (absurd rfl))
  | splitEnc _ => exact .inr (respondOk_answersOk (by simp [opcode]) (absurd rfl))
  | join _ => exact .inr (.ite rfl hvalid (join_answersOk (by simp [opcode]) (absurd rfl)))
  | joinDec _ => exact .inr (.ite rfl hvalid (join_answersOk (by simp [opcode]) (by simp [opcode])))
  | endStream _ => exact .inl (congrArg Instr.endStream (operand_eq_zero_of_wellFormed rfl hvalid))
  | clr _ =>
    obtain rfl := operand_eq_zero_of_wellFormed rfl hvalid
    exact .inr (clr_answersOk s)
  | _ => cases hvalid

end Answers

/-! ### The words a command can answer -/

/-- Everything a command can put on `rsp`: an error of its encoding with nothing else in the word, END's length error with
the discarded message, or a response with `ERR = OK`. -/
theorem exec_rsp_cases {i : Instr} {s t : State} (hexec : exec i s = .next t) :
    (i.wellFormed = false ∧ ∃ k, t.rsp = respond k false 0#3 0#16 ∧ i ≠ .endStream 0#8) ∨
    (i = .endStream 0#8 ∧ s.pendV = true ∧ t.rsp = respond .length false 0#3 (zext16 (1#1 ++ s.pendN))) ∨
    (i.wellFormed = true ∧ ∃ pos data, t.rsp = respond .ok (completesByte i s) pos data ∧
      (pos ≠ 0#3 → opcode i ∈ [0x3#4, 0x4#4, 0x9#4])) := by
  cases hkind : i.kind with
  | reservedOpcode =>
    rw [exec_of_reservedOpcode hkind] at hexec
    cases hexec
    exact .inl ⟨wellFormed_eq_false (by simp [hkind]), .unsupported, rfl, by rintro rfl; cases hkind⟩
  | reservedBits =>
    rw [exec_of_reservedBits hkind] at hexec
    cases hexec
    exact .inl ⟨wellFormed_eq_false (by simp [hkind]), .length, rfl, by rintro rfl; cases hkind⟩
  | valid =>
    have hvalid : i.wellFormed = true := by simp [Instr.wellFormed, hkind]
    obtain rfl | ⟨a, pos, data, hok, hpos⟩ := exec_wellFormed hvalid s
    · cases hpend : s.pendV with
      | true =>
        rw [exec_endStream_of_pending hpend] at hexec
        cases hexec
        exact .inr (.inl ⟨rfl, rfl, rfl⟩)
      | false =>
        rw [exec_endStream_of_not_pending hpend] at hexec
        cases hexec
        exact .inr (.inr ⟨hvalid, 0#3, 0#16, rfl, absurd rfl⟩)
    · rw [hok] at hexec
      cases hexec
      exact .inr (.inr ⟨hvalid, pos, data, rfl, hpos⟩)

/-! ### The response invariant (R74, R200) -/

theorem legalResponse_respond (k : ErrKind) (bv : Bool) (pos : ErrorPosition) (data : Data) :
    legalResponse (respond k bv pos data) = true := by
  simp [legalResponse, code_ne_three]

theorem exec_answers_legal {i : Instr} {s t : State} (hexec : exec i s = .next t) : legalResponse t.rsp = true := by
  obtain ⟨-, k, hrsp, -⟩ | ⟨-, -, hrsp⟩ | ⟨-, pos, data, hrsp, -⟩ := exec_rsp_cases hexec
  all_goals rw [hrsp, legalResponse_respond]

theorem legalResponse_iff {r : Response} : legalResponse r = true ↔ rspErr r ≠ 0b11#2 ∧ rspRsv r = 0#2 := by
  simp [legalResponse, and_comm]

theorem responseInv_iff {s : State} : s.responseInv = true ↔ (s.resetSeen = true → legalResponse s.rsp = true) := by
  cases hseen : s.resetSeen <;> simp [State.responseInv, hseen]

theorem responseInv_of_legal {s : State} (hlegal : legalResponse s.rsp = true) : s.responseInv = true :=
  responseInv_iff.mpr fun _ => hlegal

/-- The invariant does not read `RSP_V` or the host's drive. -/
theorem responseInv_idleEdge_consume (s : State) : s.consume.idleEdge.responseInv = s.responseInv := rfl

/-! ### The parts of `DATA` (R75) -/

section DataParts

variable {w n start len k : Nat}

theorem extractLsb'_eq_zero_of_le (v : BitVec w) (hle : w ≤ start) : v.extractLsb' start len = 0#len := by
  ext j hj
  simp [BitVec.getLsbD_of_ge v (start + j) (by omega)]

theorem extractLsb'_zext16 (v : BitVec w) (hle : start + len ≤ 16) :
    (zext16 v).extractLsb' start len = v.extractLsb' start len :=
  BitVec.extractLsb'_setWidth_of_le hle

theorem extractLsb'_shiftLeft_below (x : BitVec w) (hle : start + len ≤ k) :
    (x <<< k).extractLsb' start len = 0#len := by
  ext j hj
  have hbelow : start + j < k := by omega
  simp [hbelow]

theorem extractLsb'_shiftLeft_above (x : BitVec w) (hle : k ≤ start) (hlen : start + len ≤ w) :
    (x <<< k).extractLsb' start len = x.extractLsb' (start - k) len := by
  refine BitVec.eq_of_getLsbD_eq fun j hj => ?_
  have habove : ¬start + j < k := by omega
  have hwidth : start + j < w := by omega
  have hlow : start - k + j < w := by omega
  have hindex : start + j - k = start - k + j := by omega
  simp [habove, hwidth, hlow, hindex]

/-- The parts of `DATA[4:0] = {v, m}`, the answer of CLR. -/
theorem zext16_append_parts (v : Bool) (m : Message) :
    (zext16 (BitVec.ofBool v ++ m)).getLsbD 4 = v ∧ (zext16 (BitVec.ofBool v ++ m)).extractLsb' 0 4 = m ∧
      (zext16 (BitVec.ofBool v ++ m)).extractLsb' 5 11 = 0#11 := by
  refine ⟨?_, ?_, ?_⟩
  · rw [zext16, BitVec.getLsbD_setWidth, BitVec.getLsbD_append]
    simp
  · rw [extractLsb'_zext16 _ (by decide), BitVec.extractLsb'_append_eq_of_add_le (by decide), BitVec.extractLsb'_eq_self]
  · rw [extractLsb'_zext16 _ (by decide), extractLsb'_eq_zero_of_le _ (by decide)]

end DataParts

/-! ### Commands with operands in form -/

@[simp] theorem m4Message_m4Operand (m : Message) : m4Message (m4Operand m) = m := by
  revert m
  decide

@[simp] theorem reservedSet_m4Operand (m : Message) : reservedSet .m4 (m4Operand m) = false := by
  revert m
  decide

@[simp] theorem c7Codeword_c7Operand (r : Codeword) : c7Codeword (c7Operand r) = r := by
  revert r
  decide

@[simp] theorem reservedSet_c7Operand (r : Codeword) : reservedSet .c7 (c7Operand r) = false := by
  revert r
  decide

@[simp] theorem decodeCodeword_pos (r : Codeword) : (decodeCodeword r).pos = synTab (syndromeOf r) := rfl
@[simp] theorem decodeCodeword_syn (r : Codeword) : (decodeCodeword r).syn = syndromeOf r := rfl
@[simp] theorem correct_pos (r : Codeword) (s : Syndrome) : (correct r s).pos = synTab s := rfl

section InForm

variable (s : State) (m : Message) (r : Codeword) (b : Byte)

theorem exec_enc_m4Operand :
    exec (.enc (m4Operand m)) s = .next (s.answer (respond .ok false 0#3 (zext16 (encodeMessage m)))) := by
  simp [exec, execEnc, respondOk_eq]

theorem exec_syn_c7Operand :
    exec (.syn (c7Operand r)) s = .next (s.answer (respond .ok false 0#3 (zext16 (syndromeOf r)))) := by
  simp [exec, execSyn, respondOk_eq]

theorem exec_cor_c7Operand :
    exec (.cor (c7Operand r)) s = .next (s.answer (respond .ok false (synTab (syndromeOf r))
      ((zext16 (syndromeOf r) <<< 12) ||| zext16 (correct r (syndromeOf r)).cw))) := by
  simp [exec, execCor, respondOk_eq]

theorem exec_dec_c7Operand :
    exec (.dec (c7Operand r)) s = .next (s.answer (respond .ok false (synTab (syndromeOf r))
      ((zext16 (syndromeOf r) <<< 12) ||| zext16 (decodeCodeword r).msg))) := by
  simp [exec, execDec, respondOk_eq]

theorem exec_split : exec (.split b) s = .next (s.answer (respond .ok false 0#3 (zext16 b))) := by
  have hbyte : splitFirst b ++ splitSecond b = b :=
    (BitVec.extractLsb'_append_extractLsb'_eq_extractLsb' (start₁ := 0) (len₁ := 4) rfl).trans
      BitVec.extractLsb'_eq_self
  simp [exec, execSplit, respondOk_eq, b8Byte, hbyte]

theorem exec_splitEnc :
    exec (.splitEnc b) s = .next (s.answer (respond .ok false 0#3
      ((zext16 (encodeMessage (b.extractLsb' 4 4)) <<< 7) ||| zext16 (encodeMessage (b.extractLsb' 0 4))))) := rfl

theorem exec_join_m4Operand :
    exec (.join (m4Operand m)) s = .next ((s.setAdapter (joinNext .join m s.adapter)).answer
      (respond .ok s.pendV 0#3 (zext16 (if s.pendV then s.pendN ++ m else 0#8)))) := by
  simp [exec, execJoin, joinAndRespond_eq, joinOutputs_join_bv, joinOutputs_join_byte]

theorem exec_joinDec_c7Operand :
    exec (.joinDec (c7Operand r)) s =
      .next ((s.setAdapter (joinNext .join (decodeCodeword r).msg s.adapter)).answer
        (respond .ok s.pendV (synTab (syndromeOf r))
          ((zext16 (syndromeOf r) <<< 12) ||| (zext16 (decodeCodeword r).msg <<< 8) |||
            zext16 (if s.pendV then s.pendN ++ (decodeCodeword r).msg else 0#8)))) := by
  simp [exec, execJoinDec, joinAndRespond_eq, joinOutputs_join_bv, joinOutputs_join_byte]

end InForm

/-! ### The statements -/

/-- Settles O56, over the three kinds of edge: reset writes 0, an idle edge holds `RSP`, and every command answers a legal
word. -/
theorem responseInvariantKept : Obligations.ResponseInvariantKept := by
  intro s t hinv hstep
  obtain ⟨-, hedge⟩ := step_cases hstep
  obtain ⟨-, rfl⟩ | ⟨-, -, rfl⟩ | ⟨-, -, -, hexec⟩ := clockEdge_cases hedge
  · exact responseInv_of_legal (legalResponse_respond .ok false 0#3 0#16)
  · rwa [responseInv_idleEdge_consume]
  · exact responseInv_of_legal (exec_answers_legal hexec)

/-- Settles O31: the fields of `respond`, and the words a command can answer. -/
theorem responseFields : Obligations.ResponseFields := by
  refine ⟨fun k bv pos data => ⟨rfl, rspErr_respond .., rspBv_respond .., rspPos_respond .., rspData_respond ..⟩,
    ⟨rfl, rfl, rfl⟩, fun i s t hexec => ?_⟩
  obtain ⟨herr, hrsv⟩ := legalResponse_iff.mp (exec_answers_legal hexec)
  refine ⟨herr, hrsv, ?_⟩
  obtain ⟨hmalformed, k, hrsp, -⟩ | ⟨rfl, -, hrsp⟩ | ⟨hvalid, pos, data, hrsp, hpos⟩ := exec_rsp_cases hexec
  · simp [hrsp, hmalformed]
  · simp [hrsp, opcode]
  · refine ⟨?_, by rwa [hrsp, rspPos_respond]⟩
    rw [hrsp, rspBv_respond]
    simp [ofBool_eq_one_iff, completesByte, hvalid, and_comm]

/-- Settles O33: of the words a command can answer, the errors are those of its encoding and END's. -/
theorem errorResponsesAreZero : Obligations.ErrorResponsesAreZero := by
  intro i s t hexec herr
  obtain ⟨-, k, hrsp, hend⟩ | ⟨rfl, -, hrsp⟩ | ⟨-, pos, data, hrsp, -⟩ := exec_rsp_cases hexec
  · simp [hrsp, hend]
  · simp [hrsp, ErrKind.code]
  · simp [hrsp, ErrKind.code] at herr

/-- Settles O32: each command's response word, and its parts by their places in `DATA`. -/
theorem okResponseLayout : Obligations.OkResponseLayout := by
  intro s m r b
  refine ⟨⟨_, exec_enc_m4Operand s m, ?_⟩, ⟨_, exec_syn_c7Operand s r, ?_⟩, ⟨_, exec_cor_c7Operand s r, ?_⟩,
    ⟨_, exec_dec_c7Operand s r, ?_⟩, ⟨_, exec_split s b, ?_⟩, ⟨_, exec_splitEnc s b, ?_⟩,
    ⟨_, exec_join_m4Operand s m, ?_⟩, ⟨_, exec_joinDec_c7Operand s r, ?_⟩,
    fun hpend => ⟨_, exec_endStream_of_not_pending hpend, rfl⟩, ⟨_, exec_clr s, ?_⟩⟩
  case refine_9 =>
    rw [answer_rsp, rspData_respond]
    exact ⟨rspErr_respond .., rspPos_respond .., rspBv_respond .., zext16_append_parts ..⟩
  all_goals
    simp [ErrKind.code, BitVec.extractLsb'_or, extractLsb'_zext16, extractLsb'_eq_zero_of_le,
      extractLsb'_shiftLeft_below, extractLsb'_shiftLeft_above]

end Sys2Proof.Machine
end

section
/-! PROOFS. The assembler's statements of 30_encoding.md (R84 to R86): literals, operand ranges and pseudo-instructions. A
name selects one rule (`assembleNamed_command`, `assembleNamed_pseudo`), and each rule's answers are said once. -/

namespace Sys2Proof.Machine

/-! ### Literals (R84) -/

section Literals

variable {base k n : Nat} {cs : List Char}

theorem digitsFrom_append (base acc : Nat) (cs ds : List Char) :
    digitsFrom base acc (cs ++ ds) = (digitsFrom base acc cs).bind fun v => digitsFrom base v ds := by
  induction cs generalizing acc with
  | nil => rfl
  | cons c cs ih =>
    simp only [List.cons_append, digitsFrom]
    split
    · split
      · exact ih _
      · rfl
    · rfl

theorem digitValue_hexDigit : ∀ d < 16, digitValue (hexDigit d) = some d := by decide

theorem digitsFrom_hexDigit {d : Nat} (acc : Nat) (hd : d < base) (hbase : base ≤ 16) :
    digitsFrom base acc [hexDigit d] = some (acc * base + d) := by
  simp [digitsFrom, digitValue_hexDigit d (by omega), hd]

/-- The digits a literal is written with are read back as its value, however many they are. -/
theorem digitsFrom_literalDigits (hbase : base ≤ 16) (hn : n < base ^ k) :
    digitsFrom base 0 (literalDigits base k n) = some n := by
  induction k generalizing n with
  | zero =>
    obtain rfl : n = 0 := by simpa using hn
    rfl
  | succ k ih =>
    have hpos : 0 < base := Nat.pos_of_ne_zero (by rintro rfl; simp at hn)
    have hdiv : n / base < base ^ k := Nat.div_lt_of_lt_mul (by rwa [Nat.pow_succ'] at hn)
    rw [literalDigits, digitsFrom_append, ih hdiv, Option.bind_some,
      digitsFrom_hexDigit _ (Nat.mod_lt n hpos) hbase, Nat.div_add_mod']

theorem literalDigits_succ_ne_nil : literalDigits base (k + 1) n ≠ [] := by simp [literalDigits]

theorem mem_literalDigits {c : Char} (hpos : 0 < base) (hc : c ∈ literalDigits base k n) :
    ∃ d < base, c = hexDigit d := by
  induction k generalizing n with
  | zero => cases hc
  | succ k ih =>
    rw [literalDigits, List.mem_append, List.mem_singleton] at hc
    obtain hc | hc := hc
    · exact ih hc
    · exact ⟨n % base, Nat.mod_lt n hpos, hc⟩

theorem literalValue_hex (hne : cs ≠ []) : literalValue ('0' :: 'x' :: cs) = digitsFrom 16 0 cs := by
  cases cs with
  | nil => exact absurd rfl hne
  | cons c cs => rfl

theorem literalValue_binary (hne : cs ≠ []) : literalValue ('0' :: 'b' :: cs) = digitsFrom 2 0 cs := by
  cases cs with
  | nil => exact absurd rfl hne
  | cons c cs => rfl

/-- Digits among which no base mark stands are read in base 10. -/
theorem literalValue_decimal (hne : cs ≠ []) (hplain : ∀ c ∈ cs, c ≠ 'x' ∧ c ≠ 'b') :
    literalValue cs = digitsFrom 10 0 cs := by
  unfold literalValue
  split
  · exact absurd rfl hne
  · exact absurd rfl (hplain 'x' (by simp)).1
  · exact absurd rfl (hplain 'b' (by simp)).2
  · rfl

theorem hexDigit_no_base_mark : ∀ d < 10, hexDigit d ≠ 'x' ∧ hexDigit d ≠ 'b' := by decide

theorem literalValue_literalDigits_ten (hn : n < 10 ^ (k + 1)) : literalValue (literalDigits 10 (k + 1) n) = some n := by
  rw [literalValue_decimal literalDigits_succ_ne_nil, digitsFrom_literalDigits (by decide) hn]
  intro c hc
  obtain ⟨d, hd, rfl⟩ := mem_literalDigits (by decide) hc
  exact hexDigit_no_base_mark d hd

theorem literalValue_literalDigits_sixteen (hn : n < 16 ^ (k + 1)) :
    literalValue ('0' :: 'x' :: literalDigits 16 (k + 1) n) = some n := by
  rw [literalValue_hex literalDigits_succ_ne_nil, digitsFrom_literalDigits (by decide) hn]

theorem literalValue_literalDigits_two (hn : n < 2 ^ (k + 1)) :
    literalValue ('0' :: 'b' :: literalDigits 2 (k + 1) n) = some n := by
  rw [literalValue_binary literalDigits_succ_ne_nil, digitsFrom_literalDigits (by decide) hn]

end Literals

/-! ### Operand ranges (R85) -/

section Ranges

variable {f : Form} {limit v : Nat} {vs : List Nat}

/-- The range of a form is exactly its operands without a reserved bit (R72, R85). -/
theorem reservedSet_eq_false_iff {opd : Operand} (hlimit : operandLimit f = some limit) :
    reservedSet f opd = false ↔ opd.toNat ≤ limit := by
  cases f <;> cases hlimit <;> revert opd <;> decide

theorem form_eq_z (hlimit : operandLimit f = none) : f = .z := by
  cases f <;> cases hlimit
  rfl

theorem reservedSet_z_zero : reservedSet .z 0#8 = false := rfl

theorem operandLimit_le (hlimit : operandLimit f = some limit) : limit ≤ 255 := by
  cases f <;> cases hlimit <;> decide

theorem reservedSet_ofNat (hlimit : operandLimit f = some limit) (hv : v ≤ limit) :
    reservedSet f (BitVec.ofNat 8 v) = false := by
  have hbyte := operandLimit_le hlimit
  have htoNat : (BitVec.ofNat 8 v).toNat = v := by
    rw [BitVec.toNat_ofNat]
    omega
  rwa [reservedSet_eq_false_iff hlimit, htoNat]

theorem fieldsOf_of_le (hle : ∀ x ∈ vs, x ≤ limit) : fieldsOf limit vs = .ok (vs.map (BitVec.ofNat 8)) := by
  induction vs with
  | nil => rfl
  | cons v vs ih =>
    rw [List.forall_mem_cons] at hle
    simp [fieldsOf, hle.1, ih hle.2]

theorem fieldsOf_of_exceeds (hexceeds : ∃ x ∈ vs, limit < x) : fieldsOf limit vs = .error .operandOutOfRange := by
  induction vs with
  | nil => simp at hexceeds
  | cons v vs ih =>
    rw [List.exists_mem_cons_iff] at hexceeds
    by_cases hv : v ≤ limit
    · simp [fieldsOf, hv, ih (hexceeds.resolve_left (by omega))]
    · simp [fieldsOf, hv]

theorem assembleCommand_operand {row : CommandRow} (hlimit : operandLimit row.form = some limit) (v : Nat) :
    assembleCommand row [v] =
      if v ≤ limit then .ok [encode (row.build (BitVec.ofNat 8 v))] else .error .operandOutOfRange := by
  simp [assembleCommand, hlimit]

theorem assembleCommand_no_operand {row : CommandRow} (hlimit : operandLimit row.form = none) :
    assembleCommand row [] = .ok [encode (row.build 0#8)] := by
  simp [assembleCommand, hlimit]

theorem assembleCommand_unexpected {row : CommandRow} (hlimit : operandLimit row.form = none) (v : Nat) (vs : List Nat) :
    assembleCommand row (v :: vs) = .error .operandUnexpected := by
  simp [assembleCommand, hlimit]

theorem assemblePseudo_of_le {p : Pseudo} (hlimit : operandLimit p.form = some limit) (hle : ∀ x ∈ v :: vs, x ≤ limit) :
    assemblePseudo p (v :: vs) = .ok ((p.expand ((v :: vs).map (BitVec.ofNat 8))).map encode) := by
  simp [assemblePseudo, hlimit, fieldsOf_of_le hle]

theorem assemblePseudo_of_exceeds {p : Pseudo} (hlimit : operandLimit p.form = some limit)
    (hexceeds : ∃ x ∈ vs, limit < x) : assemblePseudo p vs = .error .operandOutOfRange := by
  cases vs with
  | nil => simp at hexceeds
  | cons v vs => simp [assemblePseudo, hlimit, fieldsOf_of_exceeds hexceeds]

theorem assemblePseudo_nil (p : Pseudo) : assemblePseudo p [] = .error .operandMissing := by
  cases p <;> rfl

end Ranges

/-! ### The name of a line selects one rule (R77, R85, R86) -/

section Names

variable {row : CommandRow}

theorem assembleNamed_command (hrow : row ∈ commandRows) (vs : List Nat) :
    assembleNamed row.name.toList vs = assembleCommand row vs := by
  fin_cases hrow <;> rfl

theorem assembleNamed_pseudo (p : Pseudo) (vs : List Nat) : assembleNamed p.name.toList vs = assemblePseudo p vs := by
  cases p <;> rfl

theorem assembleNamed_raw (v : Nat) :
    assembleNamed ".CMD".toList [v] = if v ≤ 0xFFF then .ok [BitVec.ofNat 12 v] else .error .operandOutOfRange := rfl

/-- Words come from a mnemonic, a pseudo-instruction or the directive, and from nothing else. -/
theorem assembleNamed_ok_cases {name : List Char} {vs : List Nat} {ws : List Command}
    (hok : assembleNamed name vs = .ok ws) :
    (∃ row ∈ commandRows, assembleCommand row vs = .ok ws) ∨ (∃ p, assemblePseudo p vs = .ok ws) ∨
      name = ".CMD".toList := by
  unfold assembleNamed at hok
  split at hok
  · exact .inl ⟨_, List.mem_of_find?_eq_some ‹_›, hok⟩
  · split at hok
    · exact .inr (.inl ⟨_, hok⟩)
    · split at hok
      · exact .inr (.inr (eq_of_beq ‹_›))
      · cases hok

theorem build_form (hrow : row ∈ commandRows) (opd : Operand) : (row.build opd).form = some row.form := by
  fin_cases hrow <;> rfl

theorem build_operand (hrow : row ∈ commandRows) (opd : Operand) : (row.build opd).operand = opd := by
  fin_cases hrow <;> rfl

theorem mnemonicText_build (hrow : row ∈ commandRows) (opd : Operand) : mnemonicText (row.build opd) = row.name := by
  fin_cases hrow <;> rfl

/-- A command with a form is that of its mnemonic's row (R77). -/
theorem exists_row {i : Instr} {f : Form} (hform : i.form = some f) :
    ∃ row ∈ commandRows, row.build i.operand = i ∧ row.form = f := by
  cases i <;> cases hform <;> simp [commandRows, Instr.operand]

end Names

/-! ### Everything but `.cmd` writes valid operand bits (R85) -/

theorem wellFormed_build {row : CommandRow} (hrow : row ∈ commandRows) {opd : Operand}
    (hvalid : reservedSet row.form opd = false) : (row.build opd).wellFormed = true := by
  rw [wellFormed_of_form (build_form hrow opd), build_operand hrow, hvalid, Bool.not_false]

theorem assembleCommand_wellFormed {row : CommandRow} (hrow : row ∈ commandRows) {vs : List Nat} {ws : List Command}
    (hok : assembleCommand row vs = .ok ws) : ∀ cmd ∈ ws, (decode cmd).wellFormed = true := by
  unfold assembleCommand at hok
  split at hok
  case h_1 hform =>
    have hvalid : reservedSet row.form 0#8 = false := by rw [form_eq_z hform, reservedSet_z_zero]
    cases hok
    simp [decode_encode, wellFormed_build hrow hvalid]
  case h_4 limit v hlimit =>
    split at hok
    · cases hok
      simp [decode_encode, wellFormed_build hrow (reservedSet_ofNat hlimit ‹_›)]
    · cases hok
  all_goals cases hok

/-- A command of an expansion takes one of the operands in the pseudo-instruction's form, or is the END after them
(R86). -/
theorem mem_expand {p : Pseudo} {opds : List Operand} {i : Instr} (hi : i ∈ p.expand opds) :
    (i.form = some p.form ∧ i.operand ∈ opds) ∨ i = .endStream 0#8 := by
  cases p with
  | toMessages | toCodewords | fromCodewords | encodeBytes =>
    obtain ⟨opd, hopd, rfl⟩ := List.mem_map.mp hi
    exact .inl ⟨rfl, hopd⟩
  | fromMessages | decodeToBytes =>
    obtain hi | hend := List.mem_append.mp hi
    · obtain ⟨opd, hopd, rfl⟩ := List.mem_map.mp hi
      exact .inl ⟨rfl, hopd⟩
    · exact .inr (List.mem_singleton.mp hend)

theorem assemblePseudo_wellFormed {p : Pseudo} {vs : List Nat} {ws : List Command}
    (hok : assemblePseudo p vs = .ok ws) : ∀ cmd ∈ ws, (decode cmd).wellFormed = true := by
  cases hlimit : operandLimit p.form with
  | none => simp [assemblePseudo, hlimit] at hok
  | some limit =>
    by_cases hle : ∀ x ∈ vs, x ≤ limit
    case neg =>
      rw [assemblePseudo_of_exceeds hlimit (by simpa using hle)] at hok
      cases hok
    case pos =>
      cases vs with
      | nil => cases (assemblePseudo_nil p).symm.trans hok
      | cons v vs =>
        rw [assemblePseudo_of_le hlimit hle] at hok
        cases hok
        intro cmd hcmd
        obtain ⟨i, hi, rfl⟩ := List.mem_map.mp hcmd
        rw [decode_encode]
        obtain ⟨hform, hopd⟩ | rfl := mem_expand hi
        · obtain ⟨x, hx, hfield⟩ := List.mem_map.mp hopd
          rw [wellFormed_of_form hform, ← hfield, reservedSet_ofNat hlimit (hle x hx), Bool.not_false]
        · rfl

/-- A line is judged by its name and its operands (R84). -/
theorem assembleLine_eq {line : List Char} {vs : List Nat} (hne : trimText (stripComment line) ≠ [])
    (hops : operandsOf ((trimText (stripComment line)).dropWhile fun c => !isBlank c) = some vs) :
    assembleLine line = assembleNamed (lineName line) vs := by
  simp [assembleLine, hne, hops]

/-! ### The statements -/

/-- Settles O60: literals digit by digit, then each rule's range, reached through its name. -/
theorem assemblerRefusesOutOfRange : Obligations.AssemblerRefusesOutOfRange := by
  refine ⟨fun k n => ⟨literalValue_literalDigits_ten, literalValue_literalDigits_sixteen, literalValue_literalDigits_two⟩,
    ⟨rfl, rfl, rfl, rfl⟩, fun row hrow => ⟨fun opd => ⟨build_form hrow opd, mnemonicText_build hrow opd⟩, ?_, ?_⟩,
    fun p limit vs hlimit hexceeds => ?_, assembleNamed_raw, fun line vs => assembleLine_eq⟩
  · intro limit v hlimit
    rw [assembleNamed_command hrow, assembleCommand_operand hlimit]
  · intro v vs hlimit
    rw [assembleNamed_command hrow, assembleCommand_unexpected hlimit]
  · rw [assembleNamed_pseudo, assemblePseudo_of_exceeds hlimit hexceeds]

/-- Settles O18: operands in range become their fields, and the expansion maps over them. -/
theorem pseudoInstructionsExpand : Obligations.PseudoInstructionsExpand := by
  refine ⟨fun p limit v vs hlimit hle => ?_, fun p => by rw [assembleNamed_pseudo, assemblePseudo_nil]⟩
  rw [assembleNamed_pseudo, assemblePseudo_of_le hlimit hle]
  cases p <;> simp [Pseudo.expand, Function.comp_def]

/-- Settles O17: a line's words come from a mnemonic or a pseudo-instruction, whose ranges leave every reserved bit 0. -/
theorem onlyRawDirectiveWritesInvalidWords : Obligations.OnlyRawDirectiveWritesInvalidWords := by
  intro line ws hok hname
  unfold assembleLine at hok
  split at hok
  · cases hok
    simp
  · split at hok
    · cases hok
    · obtain ⟨row, hrow, hcommand⟩ | ⟨p, hpseudo⟩ | hraw := assembleNamed_ok_cases hok
      · exact assembleCommand_wellFormed hrow hcommand
      · exact assemblePseudo_wellFormed hpseudo
      · exact absurd hraw hname

end Sys2Proof.Machine
end

section
/-! PROOFS. The assembler reads the disassembler's lines back (30_encoding.md R84, R85). A printed line is a name alone
(`assembleLine_name`) or a name and one hexadecimal literal (`assembleLine_operand`). -/

namespace Sys2Proof.Machine

/-! ### Lines of a name and at most one literal (R84) -/

/-- A character of the disassembler's names and digits: no white space, and it begins no comment and ends no operand. -/
def isPlain (c : Char) : Bool := !isBlank c && c != ';' && c != ','

section Lines

variable {name cs : List Char} {k n : Nat}

theorem isPlain_iff {c : Char} : isPlain c = true ↔ isBlank c = false ∧ c ≠ ';' ∧ c ≠ ',' := by
  simp [isPlain, and_assoc]

theorem dropWhile_isBlank_eq_self (hhead : ∀ c ∈ cs.head?, isBlank c = false) : cs.dropWhile isBlank = cs := by
  cases cs with
  | nil => rfl
  | cons c cs => simp [hhead c rfl]

theorem trimText_eq_self (hhead : ∀ c ∈ cs.head?, isBlank c = false) (hlast : ∀ c ∈ cs.getLast?, isBlank c = false) :
    trimText cs = cs := by
  rw [trimText, dropWhile_isBlank_eq_self hhead, dropWhile_isBlank_eq_self (by rwa [List.head?_reverse]),
    List.reverse_reverse]

theorem stripComment_eq_self (hcomment : ∀ c ∈ cs, c ≠ ';') : stripComment cs = cs :=
  List.takeWhile_eq_self_iff.mpr (by simpa using hcomment)

theorem splitAt_eq_singleton (hsep : ∀ c ∈ cs, c ≠ ',') : splitAt ',' cs = [cs] := by
  induction cs with
  | nil => rfl
  | cons c cs ih =>
    rw [List.forall_mem_cons] at hsep
    simp [splitAt, hsep.1, ih hsep.2]

theorem hexDigits_eq_literalDigits (k n : Nat) : hexDigits k n = literalDigits 16 k n := by
  induction k generalizing n with
  | zero => rfl
  | succ k ih => rw [hexDigits, literalDigits, ih]

theorem isPlain_hexDigit : ∀ d < 16, isPlain (hexDigit d) = true := by decide

theorem isPlain_of_mem_hexDigits {c : Char} (hc : c ∈ hexDigits k n) : isPlain c = true := by
  rw [hexDigits_eq_literalDigits] at hc
  obtain ⟨d, hd, rfl⟩ := mem_literalDigits (by decide) hc
  exact isPlain_hexDigit d hd

/-- The operand as printed: a space, the mark of base 16 and the digits. -/
def printedOperand (k n : Nat) : List Char := ' ' :: '0' :: 'x' :: hexDigits k n

theorem printedOperand_no_mark {c : Char} (hc : c ∈ printedOperand k n) : c ≠ ';' ∧ c ≠ ',' := by
  simp only [printedOperand, List.mem_cons] at hc
  obtain rfl | rfl | rfl | hc := hc
  · decide
  · decide
  · decide
  · exact (isPlain_iff.mp (isPlain_of_mem_hexDigits hc)).2

/-- The digits at the end of a text stay when it is trimmed. -/
theorem trimText_append_hexDigits (hhead : ∀ c ∈ (cs ++ hexDigits (k + 1) n).head?, isBlank c = false) :
    trimText (cs ++ hexDigits (k + 1) n) = cs ++ hexDigits (k + 1) n := by
  refine trimText_eq_self hhead ?_
  rw [hexDigits, ← List.append_assoc, List.getLast?_concat]
  rintro c ⟨⟩
  exact (isPlain_iff.mp (isPlain_hexDigit _ (Nat.mod_lt n (by decide)))).1

theorem trimText_printedOperand : trimText (printedOperand (k + 1) n) = '0' :: 'x' :: hexDigits (k + 1) n :=
  trimText_append_hexDigits (cs := ['0', 'x']) (by simp [isBlank])

theorem operandsOf_printedOperand (hn : n < 16 ^ (k + 1)) : operandsOf (printedOperand (k + 1) n) = some [n] := by
  have hsplit : splitAt ',' (printedOperand (k + 1) n) = [printedOperand (k + 1) n] :=
    splitAt_eq_singleton fun c hc => (printedOperand_no_mark hc).2
  have hvalue := literalValue_literalDigits_sixteen hn
  rw [← hexDigits_eq_literalDigits] at hvalue
  simp [operandsOf, trimText_printedOperand, hsplit, literalValues, hvalue]

/-- A name the disassembler prints: not empty, and of plain characters. -/
def IsName (name : List Char) : Prop := name ≠ [] ∧ name.all isPlain = true

theorem IsName.isPlain_of_mem (hname : IsName name) {c : Char} (hc : c ∈ name) : isBlank c = false ∧ c ≠ ';' ∧ c ≠ ',' :=
  isPlain_iff.mp (List.all_eq_true.mp hname.2 c hc)

theorem IsName.head (hname : IsName name) : ∀ c ∈ name.head?, isBlank c = false := fun _ hc =>
  (hname.isPlain_of_mem (List.mem_of_head? hc)).1

theorem IsName.last (hname : IsName name) : ∀ c ∈ name.getLast?, isBlank c = false := fun _ hc =>
  (hname.isPlain_of_mem (List.mem_of_getLast? hc)).1

theorem IsName.no_blank (hname : IsName name) : ∀ c ∈ name, (!isBlank c) = true := fun c hc => by
  simp [(hname.isPlain_of_mem hc).1]

theorem IsName.no_comment (hname : IsName name) : ∀ c ∈ name, c ≠ ';' := fun _ hc =>
  (hname.isPlain_of_mem hc).2.1

/-- A printed name alone is read with no operand. -/
theorem assembleLine_name (hname : IsName name) : assembleLine name = assembleNamed (name.map Char.toUpper) [] := by
  have hline : trimText (stripComment name) = name := by
    rw [stripComment_eq_self hname.no_comment, trimText_eq_self hname.head hname.last]
  have hword : lineName name = name.map Char.toUpper := by
    rw [lineName, hline, List.takeWhile_eq_self_iff.mpr hname.no_blank]
  rw [assembleLine_eq (vs := []) (by rw [hline]; exact hname.1), hword]
  rw [hline, List.dropWhile_eq_nil_iff.mpr hname.no_blank]
  rfl

theorem trimText_append_printedOperand (hname : IsName name) :
    trimText (name ++ printedOperand (k + 1) n) = name ++ printedOperand (k + 1) n := by
  have hsplit : name ++ printedOperand (k + 1) n = (name ++ [' ', '0', 'x']) ++ hexDigits (k + 1) n := by
    simp [printedOperand]
  rw [hsplit, trimText_append_hexDigits]
  rw [List.append_assoc, List.head?_append_of_ne_nil _ hname.1]
  exact hname.head

/-- A printed name and literal are read as that name with the literal's value. -/
theorem assembleLine_operand (hname : IsName name) (hn : n < 16 ^ (k + 1)) :
    assembleLine (name ++ printedOperand (k + 1) n) = assembleNamed (name.map Char.toUpper) [n] := by
  have hline : trimText (stripComment (name ++ printedOperand (k + 1) n)) = name ++ printedOperand (k + 1) n := by
    have hcomment : ∀ c ∈ name ++ printedOperand (k + 1) n, c ≠ ';' :=
      List.forall_mem_append.mpr ⟨hname.no_comment, fun c hc => (printedOperand_no_mark hc).1⟩
    rw [stripComment_eq_self hcomment]
    exact trimText_append_printedOperand hname
  have hword : lineName (name ++ printedOperand (k + 1) n) = name.map Char.toUpper := by
    rw [lineName, hline, List.takeWhile_append_of_pos hname.no_blank]
    simp [printedOperand, isBlank]
  rw [assembleLine_eq (vs := [n]) (by rw [hline]; simp [hname.1]), hword]
  rw [hline, List.dropWhile_append_of_pos hname.no_blank]
  exact operandsOf_printedOperand hn

end Lines

/-! ### What the disassembler prints (R84, R85) -/

theorem isName_raw : IsName ".cmd".toList := ⟨by decide, by decide⟩

theorem isName_row {row : CommandRow} (hrow : row ∈ commandRows) :
    IsName row.name.toList ∧ row.name.toList.map Char.toUpper = row.name.toList := by
  revert row
  unfold IsName
  decide

theorem assembleLine_raw (cmd : Command) : assembleLine (".cmd 0x".toList ++ hexDigits 3 cmd.toNat) = .ok [cmd] := by
  have hcmd : cmd.toNat < 16 ^ (2 + 1) := cmd.isLt
  have hprinted := (assembleLine_operand isName_raw hcmd).trans (assembleNamed_raw cmd.toNat)
  rwa [if_pos (by omega), BitVec.ofNat_toNat, BitVec.setWidth_eq] at hprinted

/-- The operand of a form with a limit is printed with digits enough for the limit (R84). -/
theorem operandText_of_limit {f : Form} {limit : Nat} (hlimit : operandLimit f = some limit) (opd : Operand) :
    ∃ k, limit < 16 ^ (k + 1) ∧ operandText f opd = printedOperand (k + 1) opd.toNat := by
  cases f with
  | m4 => cases hlimit; exact ⟨0, by decide, rfl⟩
  | c7 => cases hlimit; exact ⟨1, by decide, rfl⟩
  | b8 => cases hlimit; exact ⟨1, by decide, rfl⟩
  | z => cases hlimit

theorem assembleLine_command {row : CommandRow} (hrow : row ∈ commandRows) {opd : Operand}
    (hvalid : reservedSet row.form opd = false) :
    assembleLine (row.name.toList ++ operandText row.form opd) = .ok [encode (row.build opd)] := by
  obtain ⟨hname, hupper⟩ := isName_row hrow
  cases hlimit : operandLimit row.form with
  | none =>
    have hz : row.form = .z := form_eq_z hlimit
    rw [hz] at hvalid ⊢
    obtain rfl : opd = 0#8 := by simpa [reservedSet] using hvalid
    rw [operandText, List.append_nil, assembleLine_name hname, hupper, assembleNamed_command hrow,
      assembleCommand_no_operand hlimit]
  | some limit =>
    have hle := (reservedSet_eq_false_iff hlimit).mp hvalid
    obtain ⟨k, hk, htext⟩ := operandText_of_limit hlimit opd
    rw [htext, assembleLine_operand hname (by omega), hupper, assembleNamed_command hrow,
      assembleCommand_operand hlimit, if_pos hle, BitVec.ofNat_toNat, BitVec.setWidth_eq]

/-! ### The statement -/

/-- Settles O16: a word is printed as `.cmd` or as its command's row, and either line is read back. -/
theorem disassemblyAssemblesBack : Obligations.DisassemblyAssemblesBack := by
  intro cmd
  unfold disassemble
  split
  · exact assembleLine_raw cmd
  · next f hform =>
    cases hres : reservedSet f (decode cmd).operand with
    | true => exact assembleLine_raw cmd
    | false =>
      obtain ⟨row, hrow, hbuild, rfl⟩ := exists_row hform
      have hname : mnemonicText (decode cmd) = row.name := by rw [← hbuild, mnemonicText_build hrow]
      have hline := assembleLine_command hrow hres
      rw [hbuild, encode_decode] at hline
      rw [hname]
      exact hline

end Sys2Proof.Machine
end

section
/-! PROOFS. The statements of 40_gf2_core.md. `MatVec` is linear at every shape (R100, R101), so what a decoder makes of a
codeword with errors is the message plus what it makes of the errors alone; under each parity matrix of D2 the syndrome
table and the syndrome of a flip are inverse to each other (R107, R108). -/

namespace Sys2Proof.Machine

/-! ### MatVec at every shape (R100, R101) -/

section MatVec

variable {n m k : Nat}

@[simp] theorem element_zero (i : Nat) : element 0#n i = false := by
  simp [element]

@[simp] theorem element_xor (v w : BitVec n) (i : Nat) : element (v ^^^ w) i = (element v i ^^ element w i) := by
  simp [element]

/-- `xorOver` adds its last term last; this takes out its first. -/
theorem xorOver_succ_first (f : Nat → Bool) (n : Nat) :
    xorOver f (n + 1) = (f 1 ^^ xorOver (fun i => f (i + 1)) n) := by
  induction n with
  | zero => simp [xorOver]
  | succ n ih => rw [xorOver, ih, Bool.xor_assoc, xorOver]

theorem xorOver_congr {f g : Nat → Bool} (hfg : ∀ i, 1 ≤ i → f i = g i) (n : Nat) : xorOver f n = xorOver g n := by
  induction n with
  | zero => rfl
  | succ n ih => rw [xorOver, xorOver, ih, hfg _ (Nat.succ_pos n)]

theorem element_matVecFrom (v : BitVec n) (rows : List (BitVec m)) (s j : Nat) :
    element (matVecFrom v (s + 1) rows) j =
      xorOver (fun i => element v (s + i) && element (rows.getD (i - 1) 0#m) j) rows.length := by
  induction rows generalizing s with
  | nil => simp [matVecFrom, xorOver]
  | cons row rows ih =>
    have hrow : element (if element v (s + 1) then row else 0#m) j = (element v (s + 1) && element row j) := by
      cases element v (s + 1) <;> simp
    have hrest : xorOver (fun i => element v (s + (i + 1)) && element ((row :: rows).getD (i + 1 - 1) 0#m) j)
          rows.length =
        xorOver (fun i => element v (s + 1 + i) && element (rows.getD (i - 1) 0#m) j) rows.length := by
      refine xorOver_congr (fun i hi => ?_) _
      obtain ⟨i, rfl⟩ := Nat.exists_eq_add_of_le' hi
      simp [Nat.add_comm, Nat.add_left_comm]
    rw [matVecFrom, element_xor, hrow, ih, List.length_cons, xorOver_succ_first, hrest]
    rfl

theorem matVecFrom_zero (i : Nat) (rows : List (BitVec m)) : matVecFrom 0#n i rows = 0#m := by
  induction rows generalizing i with
  | nil => rfl
  | cons row rows ih => simp [matVecFrom, ih]

theorem matVecFrom_xor (v w : BitVec n) (i : Nat) (rows : List (BitVec m)) :
    matVecFrom (v ^^^ w) i rows = matVecFrom v i rows ^^^ matVecFrom w i rows := by
  induction rows generalizing i with
  | nil => simp [matVecFrom]
  | cons row rows ih =>
    have hrow : (if element (v ^^^ w) i then row else 0#m) =
        (if element v i then row else 0#m) ^^^ (if element w i then row else 0#m) := by
      cases hv : element v i <;> cases hw : element w i <;> simp [hv, hw]
    simp only [matVecFrom, hrow, ih]
    ac_rfl

@[simp] theorem matVec_zero (rows : List (BitVec m)) : matVec 0#n rows = 0#m := matVecFrom_zero 1 rows

/-- `MatVec` is linear in its vector. -/
@[simp] theorem matVec_xor (v w : BitVec n) (rows : List (BitVec m)) :
    matVec (v ^^^ w) rows = matVec v rows ^^^ matVec w rows := matVecFrom_xor v w 1 rows

theorem matVec_matVecFrom (v : BitVec n) (i : Nat) (rows : List (BitVec m)) (cols : List (BitVec k)) :
    matVec (matVecFrom v i rows) cols = matVecFrom v i (rows.map fun row => matVec row cols) := by
  induction rows generalizing i with
  | nil => exact matVec_zero cols
  | cons row rows ih => simp [matVecFrom, ih, apply_ite (fun r => matVec r cols)]

/-- A product of three: `(v · M) · N = v · (M · N)`. -/
theorem matVec_matVec (v : BitVec n) (rows : List (BitVec m)) (cols : List (BitVec k)) :
    matVec (matVec v rows) cols = matVec v (rows.map fun row => matVec row cols) :=
  matVec_matVecFrom v 1 rows cols

theorem matVecFrom_replicate_zero (v : BitVec n) (i c : Nat) : matVecFrom v i (List.replicate c 0#m) = 0#m := by
  induction c generalizing i with
  | zero => rfl
  | succ c ih => simp [List.replicate_succ, matVecFrom, ih]

theorem matVec_replicate_zero (v : BitVec n) (c : Nat) : matVec v (List.replicate c 0#m) = 0#m :=
  matVecFrom_replicate_zero v 1 c

end MatVec

theorem matVec_identityRows_four : ∀ m : Message, matVec m (identityRows 4) = m := by decide

/-! ### Decoding a codeword with errors (R124 to R127) -/

section Linear

variable {g h : List (BitVec 7)} {table : List ErrorPosition} {d : List (BitVec 4)}

theorem syndromeWith_xor (v w : Codeword) : syndromeWith h (v ^^^ w) = syndromeWith h v ^^^ syndromeWith h w :=
  matVec_xor v w _

/-- `G · Hᵗ = 0` gives every codeword the zero syndrome (R105). -/
theorem syndromeWith_encodeWith (hgh : g.map (syndromeWith h) = List.replicate 4 0#3) (m : Message) :
    syndromeWith h (encodeWith g m) = 0#3 := by
  have hprod : syndromeWith h (encodeWith g m) = matVec m (g.map (syndromeWith h)) := matVec_matVec m g _
  rw [hprod, hgh, matVec_replicate_zero]

/-- `G · D = I_4` makes `D` read the message back out of its codeword (R106). -/
theorem matVec_encodeWith (hgd : g.map (fun row => matVec row d) = identityRows 4) (m : Message) :
    matVec (encodeWith g m) d = m := by
  rw [encodeWith, matVec_matVec, hgd, matVec_identityRows_four]

theorem decodeWith_msg (r : Codeword) :
    (decodeWith h table d r).msg = matVec r d ^^^ matVec (flipMask (tableEntry table (syndromeWith h r))) d :=
  matVec_xor r _ d

/-- A codeword with the errors `e` decodes to its message plus what `e` alone decodes to. -/
theorem decodeWith_encodeWith_xor (hgh : g.map (syndromeWith h) = List.replicate 4 0#3)
    (hgd : g.map (fun row => matVec row d) = identityRows 4) (m : Message) (e : Codeword) :
    (decodeWith h table d (encodeWith g m ^^^ e)).msg = m ^^^ (decodeWith h table d e).msg := by
  simp only [decodeWith_msg, syndromeWith_xor, syndromeWith_encodeWith hgh, matVec_xor, matVec_encodeWith hgd,
    BitVec.zero_xor, BitVec.xor_assoc]

/-- A flip that the table locates decodes to message 0: the corrector undoes it. -/
theorem decodeWith_flipMask {p : ErrorPosition} (hp : tableEntry table (syndromeWith h (flipMask p)) = p) :
    (decodeWith h table d (flipMask p)).msg = 0#4 := by
  rw [decodeWith_msg, hp, BitVec.xor_self]

end Linear

/-! ### The four parity matrices of D2 -/

section Candidates

variable {p : List (BitVec 3)}

theorem generatorOf_mul_checkOf : ∀ p ∈ parityCandidates,
    (generatorOf p).map (syndromeWith (checkOf p)) = List.replicate 4 0#3 := by decide

theorem generatorOf_mul_matD : ∀ p ∈ parityCandidates,
    (generatorOf p).map (fun row => matVec row matD) = identityRows 4 := by decide

theorem encodeWith_example : ∀ p ∈ parityCandidates, encodeWith (generatorOf p) 0b0110#4 = 0b0110011#7 := by decide

/-- The table locates every flip, and no flip at position 0, by its syndrome (R107). -/
theorem tableEntry_leftInverse : ∀ p ∈ parityCandidates,
    Function.LeftInverse (tableEntry (syndromeTableOf (checkOf p))) fun i => syndromeWith (checkOf p) (flipMask i) := by
  unfold Function.LeftInverse
  decide

/-- A flip where the table points has the syndrome that was looked up (R107). -/
theorem tableEntry_rightInverse : ∀ p ∈ parityCandidates,
    Function.RightInverse (tableEntry (syndromeTableOf (checkOf p))) fun i => syndromeWith (checkOf p) (flipMask i) := by
  unfold Function.RightInverse Function.LeftInverse
  decide

/-- Two flips look like a third one; correcting that one leaves a wrong message bit. -/
theorem decodeWith_two_flips_ne_zero : ∀ p ∈ parityCandidates, ∀ i j : ErrorPosition, i ≠ 0#3 → j ≠ 0#3 → i ≠ j →
    (decodeWith (checkOf p) (syndromeTableOf (checkOf p)) matD (flipMask i ^^^ flipMask j)).msg ≠ 0#4 := by decide

theorem tableEntry_injective (hp : p ∈ parityCandidates) :
    Function.Injective (tableEntry (syndromeTableOf (checkOf p))) :=
  (tableEntry_rightInverse p hp).injective

theorem tableEntry_eq_zero_iff (hp : p ∈ parityCandidates) (s : Syndrome) :
    tableEntry (syndromeTableOf (checkOf p)) s = 0#3 ↔ s = 0#3 := by
  have hzero : tableEntry (syndromeTableOf (checkOf p)) (matVec (flipMask 0#3) _) = 0#3 :=
    tableEntry_leftInverse p hp 0#3
  rw [show flipMask 0#3 = 0#7 from rfl, matVec_zero] at hzero
  exact (tableEntry_injective hp).eq_iff' hzero

/-- Every position is the entry of a syndrome, and of a non-zero one where the position is not 0 (R108). -/
theorem exists_tableEntry_eq (hp : p ∈ parityCandidates) {i : ErrorPosition} (hi : i ≠ 0#3) :
    ∃ s : Syndrome, s ≠ 0#3 ∧ tableEntry (syndromeTableOf (checkOf p)) s = i := by
  obtain ⟨s, rfl⟩ := (tableEntry_leftInverse p hp).surjective i
  exact ⟨s, fun hs => hi ((tableEntry_eq_zero_iff hp s).mpr hs), rfl⟩

end Candidates

/-! ### The hardware's own matrices (R104 to R107) -/

theorem parityP_mem_candidates : parityP ∈ parityCandidates := by decide

theorem generatorOf_parityP : generatorOf parityP = matG := by decide

theorem checkOf_parityP : checkOf parityP = matH := by decide

theorem syndromeTableOf_matH : syndromeTableOf matH = synTable := by decide

/-- The hardware's table is the one of the first candidate of D2. -/
theorem tableEntry_parityP : tableEntry (syndromeTableOf (checkOf parityP)) = synTab := by
  rw [checkOf_parityP, syndromeTableOf_matH]
  rfl

/-- `G · Hᵗ = 0` (R105). -/
theorem matG_mul_matH : matG.map (syndromeWith matH) = List.replicate 4 0#3 := by
  rw [← generatorOf_parityP, ← checkOf_parityP]
  exact generatorOf_mul_checkOf parityP parityP_mem_candidates

/-- `G · D = I_4` (R106). -/
theorem matG_mul_matD : matG.map (fun row => matVec row matD) = identityRows 4 := by
  rw [← generatorOf_parityP]
  exact generatorOf_mul_matD parityP parityP_mem_candidates

theorem syndromeOf_encodeMessage (m : Message) : syndromeOf (encodeMessage m) = 0#3 :=
  syndromeWith_encodeWith matG_mul_matH m

/-- The syndrome of a single flip is the flipped position's column of `H` (R107). -/
theorem syndromeOf_flipMask : ∀ p : ErrorPosition, p ≠ 0#3 → syndromeOf (flipMask p) = column 3 matH p.toNat := by
  decide

theorem syndromeOf_flipMask_synTab (s : Syndrome) : syndromeOf (flipMask (synTab s)) = s := by
  have hinv := tableEntry_rightInverse parityP parityP_mem_candidates s
  rwa [tableEntry_parityP, checkOf_parityP] at hinv

theorem synTab_eq_zero_iff (s : Syndrome) : synTab s = 0#3 ↔ s = 0#3 := by
  rw [← tableEntry_parityP]
  exact tableEntry_eq_zero_iff parityP_mem_candidates s

/-! ### The statements -/

/-- Settles O1: the rows numbered from the first one give the sum from its first term. -/
theorem matVecIsXorOfAnds : Obligations.MatVecIsXorOfAnds := by
  rintro n m v rows rfl j - -
  simpa [matVec] using element_matVecFrom v rows 0 j

/-- Settles O2: the tables are compared entry by entry; the syndrome of every codeword follows from `G · Hᵗ = 0`. -/
theorem matricesAsTabulated : Obligations.MatricesAsTabulated :=
  ⟨by decide, by decide, by decide, by decide, generatorOf_parityP, checkOf_parityP, matG_mul_matH, matG_mul_matD,
    by decide, by decide, by decide, syndromeOf_encodeMessage⟩

/-- Settles O3: looking a syndrome up and taking the syndrome of a flip are inverse to each other. -/
theorem syndromeTableBijection : Obligations.SyndromeTableBijection := by
  refine ⟨by decide, syndromeTableOf_matH, fun s hs => ?_, syndromeOf_flipMask, synTab_eq_zero_iff, ?_, ?_⟩
  · rw [← syndromeOf_flipMask _ (mt (synTab_eq_zero_iff s).mp hs), syndromeOf_flipMask_synTab]
  · rw [← tableEntry_parityP]
    exact tableEntry_injective parityP_mem_candidates
  · rw [← tableEntry_parityP]
    exact fun p => exists_tableEntry_eq parityP_mem_candidates

/-- Settles O4: decoding is linear up to the located flip, so one flip and two flips are judged by what they decode to
without a message. -/
theorem everyParityCandidateCorrectsOneFlip : Obligations.EveryParityCandidateCorrectsOneFlip := by
  refine ⟨rfl, fun p hp => ?_⟩
  have hdecode := decodeWith_encodeWith_xor (table := syndromeTableOf (checkOf p)) (generatorOf_mul_checkOf p hp)
    (generatorOf_mul_matD p hp)
  refine ⟨encodeWith_example p hp, fun m i => ?_, fun m i j hi hj hij => ?_, tableEntry_eq_zero_iff hp,
    tableEntry_injective hp, fun i => exists_tableEntry_eq hp⟩
  · rw [hdecode, decodeWith_flipMask (tableEntry_leftInverse p hp i), BitVec.xor_zero]
  · rw [BitVec.xor_assoc, hdecode]
    simpa using decodeWith_two_flips_ne_zero p hp i j hi hj hij

end Sys2Proof.Machine
end

section
/-! PROOFS. The codec of 41_codec.md: the equations of the units (R120 to R127), what one flip and more flips decode to (R128,
R129), and the commands ENC, SYN, COR and DEC (R130 to R133). What is said of errors rests on one fact: the corrected word is
the codeword of the decoded message (`encodeMessage_decodeCodeword_msg`). -/

namespace Sys2Proof.Machine

/-! ### Elements and port bits (00_scope.md R9; R124, R125) -/

/-- Port bit `i` of an `n`-bit vector is its element `n - i` (R9). -/
theorem getLsbD_eq_element {n i : Nat} (v : BitVec n) (hi : i < n) : v.getLsbD i = element v (n - i) := by
  have hindex : n - 1 - (n - i - 1) = i := by omega
  have hrange : n - i - 1 < n := by omega
  simp [element, BitVec.getMsbD, hindex, hrange]

/-- Element `j` of a codeword is the sum of column `j` of G. -/
theorem element_encodeMessage {j : Nat} (m : Message) (hpos : 1 ≤ j) (hle : j ≤ 7) :
    element (encodeMessage m) j = xorOver (fun i => element m i && element (matG.getD (i - 1) 0#7) j) 4 :=
  matVecIsXorOfAnds 4 7 m matG rfl j hpos hle

/-- The systematic columns of G (R104). -/
theorem element_encodeMessage_message {i : Nat} (m : Message) (hpos : 1 ≤ i) (hle : i ≤ 4) :
    element (encodeMessage m) i = element m i := by
  rw [element_encodeMessage m hpos (by omega)]
  interval_cases i <;> simp [xorOver, matG, element]

/-- The parity columns of G (R104). -/
theorem element_encodeMessage_parity (m : Message) :
    element (encodeMessage m) 5 = (element m 2 ^^ element m 3 ^^ element m 4) ∧
      element (encodeMessage m) 6 = (element m 1 ^^ element m 3 ^^ element m 4) ∧
      element (encodeMessage m) 7 = (element m 1 ^^ element m 2 ^^ element m 4) := by
  refine ⟨?_, ?_, ?_⟩
  all_goals
    rw [element_encodeMessage m (by decide) (by decide)]
    simp [xorOver, matG, element]

theorem transpose_matH : transpose 3 matH = [0b011#3, 0b101#3, 0b110#3, 0b111#3, 0b100#3, 0b010#3, 0b001#3] := by
  decide

/-- Element `j` of a syndrome is the sum of column `j` of `Hᵗ`. -/
theorem element_syndromeOf {j : Nat} (r : Codeword) (hpos : 1 ≤ j) (hle : j ≤ 3) :
    element (syndromeOf r) j =
      xorOver (fun i => element r i && element ((transpose 3 matH).getD (i - 1) 0#3) j) 7 :=
  matVecIsXorOfAnds 7 3 r (transpose 3 matH) rfl j hpos hle

/-- The rows of H (R105). -/
theorem element_syndromeOf_rows (r : Codeword) :
    element (syndromeOf r) 1 = (element r 2 ^^ element r 3 ^^ element r 4 ^^ element r 5) ∧
      element (syndromeOf r) 2 = (element r 1 ^^ element r 3 ^^ element r 4 ^^ element r 6) ∧
      element (syndromeOf r) 3 = (element r 1 ^^ element r 2 ^^ element r 4 ^^ element r 7) := by
  refine ⟨?_, ?_, ?_⟩
  all_goals
    rw [element_syndromeOf r (by decide) (by decide)]
    simp [xorOver, transpose_matH, element]

/-- `MatVec` with D is the high nibble of the word (R127). -/
theorem matVec_matD : ∀ c : Codeword, matVec c matD = c.extractLsb' 3 4 := by decide

theorem matVec_encodeMessage_matD (m : Message) : matVec (encodeMessage m) matD = m :=
  matVec_encodeWith matG_mul_matD m

/-! ### Correction (R126) -/

theorem correct_cw (r : Codeword) (s : Syndrome) : (correct r s).cw = r ^^^ flipMask (synTab s) := rfl

@[simp] theorem flipMask_zero : flipMask 0#3 = 0#7 := rfl

theorem flipMask_of_ne_zero {p : ErrorPosition} (hp : p ≠ 0#3) : flipMask p = 1#7 <<< (7 - p.toNat) := if_neg hp

/-- A position 1 to 7 as a number and in its field (00_scope.md R7). -/
theorem ofNat_position {p : Nat} (hpos : 1 ≤ p) (hle : p ≤ 7) :
    BitVec.ofNat 3 p ≠ 0#3 ∧ (BitVec.ofNat 3 p).toNat = p := by
  interval_cases p <;> decide

theorem flipMask_ofNat {p : Nat} (hpos : 1 ≤ p) (hle : p ≤ 7) : flipMask (BitVec.ofNat 3 p) = 1#7 <<< (7 - p) := by
  obtain ⟨hne, htoNat⟩ := ofNat_position hpos hle
  rw [flipMask_of_ne_zero hne, htoNat]

theorem element_flipMask : ∀ p : ErrorPosition, ∀ j < 8, 1 ≤ j → element (flipMask p) j = decide (j = p.toNat) := by
  decide

/-! ### Errors: what the syndrome, the corrector and the decoder make of a codeword with errors (R128, R129) -/

section Errors

variable (m : Message) (e r : Codeword) (p : ErrorPosition)

@[simp] theorem syndromeOf_zero : syndromeOf 0#7 = 0#3 := matVec_zero _

theorem syndromeOf_xor (v w : Codeword) : syndromeOf (v ^^^ w) = syndromeOf v ^^^ syndromeOf w :=
  syndromeWith_xor v w

/-- The syndrome of a codeword with errors is that of the errors. -/
@[simp] theorem syndromeOf_encodeMessage_xor : syndromeOf (encodeMessage m ^^^ e) = syndromeOf e := by
  rw [syndromeOf_xor, syndromeOf_encodeMessage, BitVec.zero_xor]

@[simp] theorem synTab_syndromeOf_flipMask : synTab (syndromeOf (flipMask p)) = p := by
  have hinv := tableEntry_leftInverse parityP parityP_mem_candidates p
  rwa [tableEntry_parityP, checkOf_parityP] at hinv

theorem syndromeOf_correct : syndromeOf (correct r (syndromeOf r)).cw = 0#3 := by
  rw [correct_cw, syndromeOf_xor, syndromeOf_flipMask_synTab, BitVec.xor_self]

/-- Every word of syndrome 0 is the codeword of its high nibble. -/
theorem encodeMessage_matVec_matD : ∀ c : Codeword, syndromeOf c = 0#3 → encodeMessage (matVec c matD) = c := by decide

/-- The corrected word is the codeword of the decoded message. -/
theorem encodeMessage_decodeCodeword_msg : encodeMessage (decodeCodeword r).msg = (correct r (syndromeOf r)).cw :=
  encodeMessage_matVec_matD _ (syndromeOf_correct r)

theorem correct_encodeMessage_xor :
    correct (encodeMessage m ^^^ e) (syndromeOf e) =
      { cw := encodeMessage m ^^^ (e ^^^ flipMask (synTab (syndromeOf e))), pos := synTab (syndromeOf e) } := by
  rw [← BitVec.xor_assoc]
  rfl

/-- One flip is undone and located; position 0 is no flip (R128). -/
theorem correct_encodeMessage_flip :
    correct (encodeMessage m ^^^ flipMask p) (syndromeOf (flipMask p)) = { cw := encodeMessage m, pos := p } := by
  rw [correct_encodeMessage_xor, synTab_syndromeOf_flipMask, BitVec.xor_self, BitVec.xor_zero]

theorem decodeCodeword_eq :
    decodeCodeword r =
      { msg := matVec (correct r (syndromeOf r)).cw matD, pos := synTab (syndromeOf r), syn := syndromeOf r } := rfl

theorem decodeCodeword_encodeMessage_flip :
    decodeCodeword (encodeMessage m ^^^ flipMask p) = { msg := m, pos := p, syn := syndromeOf (flipMask p) } := by
  rw [decodeCodeword_eq, syndromeOf_encodeMessage_xor, correct_encodeMessage_flip, synTab_syndromeOf_flipMask,
    matVec_encodeMessage_matD]

end Errors

/-! ### Codewords and weights (R129, R134) -/

theorem weight_flipMask_le : ∀ p : ErrorPosition, weight (flipMask p) ≤ 1 := by decide

/-- The minimum non-zero weight (R134). -/
theorem weight_encodeMessage : ∀ m : Message, m ≠ 0#4 → 3 ≤ weight (encodeMessage m) := by decide

theorem weight_xor_flipMask : ∀ (e : Codeword) (p : ErrorPosition), p ≠ 0#3 → element e p.toNat = true →
    weight (e ^^^ flipMask p) + 1 = weight e := by decide

theorem isCodeword_iff {c : Codeword} : isCodeword c = true ↔ ∃ m, encodeMessage m = c := by
  simp only [isCodeword, List.any_eq_true, List.mem_range, beq_iff_eq]
  constructor
  · rintro ⟨m, -, hm⟩
    exact ⟨_, hm⟩
  · rintro ⟨m, hm⟩
    exact ⟨m.toNat, m.isLt, by rwa [BitVec.ofNat_toNat, BitVec.setWidth_eq]⟩

/-- The codewords are the words of syndrome 0. -/
theorem isCodeword_iff_syndromeOf {c : Codeword} : isCodeword c = true ↔ syndromeOf c = 0#3 := by
  rw [isCodeword_iff]
  constructor
  · rintro ⟨m, rfl⟩
    exact syndromeOf_encodeMessage m
  · exact fun hsyn => ⟨_, encodeMessage_matVec_matD c hsyn⟩

/-- No codeword has weight 1 or 2 (R134). -/
theorem weight_of_syndromeOf_eq_zero {c : Codeword} (hsyn : syndromeOf c = 0#3) : weight c = 0 ∨ 3 ≤ weight c := by
  obtain ⟨m, rfl⟩ := isCodeword_iff.mp (isCodeword_iff_syndromeOf.mpr hsyn)
  by_cases hm : m = 0#4
  · subst hm
    decide
  · exact .inr (weight_encodeMessage m hm)

/-- The corrector undoes one flip at most: where it gives the sent codeword back, the error was one flip or none. -/
theorem correct_ne_encodeMessage {e : Codeword} (he : 2 ≤ weight e) (m : Message) :
    (correct (encodeMessage m ^^^ e) (syndromeOf (encodeMessage m ^^^ e))).cw ≠ encodeMessage m := by
  rw [syndromeOf_encodeMessage_xor, correct_encodeMessage_xor]
  intro hcw
  have hzero : e ^^^ flipMask (synTab (syndromeOf e)) = 0#7 :=
    (BitVec.xor_right_inj (encodeMessage m)).mp (hcw.trans BitVec.xor_zero.symm)
  have hflip : e = flipMask (synTab (syndromeOf e)) := BitVec.xor_eq_zero_iff.mp hzero
  have hweight := weight_flipMask_le (synTab (syndromeOf e))
  rw [← hflip] at hweight
  omega

/-- Two flips have a syndrome, and the position it names is neither of them: undoing one of two flips would leave a codeword
of weight 1. -/
theorem synTab_ne_of_weight_two {e : Codeword} (he : weight e = 2) {p : ErrorPosition} (hp : p ≠ 0#3)
    (hflip : element e p.toNat = true) : synTab (syndromeOf e) ≠ p := by
  rintro rfl
  have hweight := weight_xor_flipMask e _ hp hflip
  have hcorrected := weight_of_syndromeOf_eq_zero (syndromeOf_correct e)
  rw [correct_cw] at hcorrected
  omega

/-- A test that reads the error pattern alone goes the same way for each of the 16 messages. -/
theorem errorCases_eq (w : Nat) (test : Codeword → Bool) :
    (errorCases w fun _ e => test e) =
      16 * ((List.range 128).filter fun e => weight (BitVec.ofNat 7 e) == w && test (BitVec.ofNat 7 e)).length := by
  simp only [errorCases, List.map_const', List.length_range, List.sum_replicate, smul_eq_mul]

/-! ### The commands (R130 to R133) -/

section Commands

variable {i : Instr} {opd : Operand}

theorem exec_m4_reserved (hform : i.form = some .m4) (s : State) (hbits : i.operand.extractLsb' 4 4 ≠ 0#4) :
    exec i s = raiseError .length s :=
  exec_of_reservedBits ((kind_eq_reservedBits_iff hform).mpr (bne_iff_ne.mpr hbits)) s

theorem exec_c7_reserved (hform : i.form = some .c7) (s : State) (hbits : i.operand.extractLsb' 7 1 ≠ 0#1) :
    exec i s = raiseError .length s :=
  exec_of_reservedBits ((kind_eq_reservedBits_iff hform).mpr (bne_iff_ne.mpr hbits)) s

/-- An operand without reserved bits is the one that holds its message (R72, R73). -/
theorem m4Operand_m4Message (hbits : opd.extractLsb' 4 4 = 0#4) : m4Operand (m4Message opd) = opd := by
  revert opd
  decide

theorem c7Operand_c7Codeword (hbits : opd.extractLsb' 7 1 = 0#1) : c7Operand (c7Codeword opd) = opd := by
  revert opd
  decide

end Commands

/-! ### The statements -/

/-- Settles O5: each element is the sum of a column of G, and a port bit is an element. -/
theorem encoderEquations : Obligations.EncoderEquations := by
  intro m
  obtain ⟨h5, h6, h7⟩ := element_encodeMessage_parity m
  have hmessage : (encodeMessage m).extractLsb' 3 4 = m := by rw [← matVec_matD, matVec_encodeMessage_matD]
  refine ⟨rfl, rfl, fun i => element_encodeMessage_message m, h5, h6, h7, hmessage, ?_⟩
  simp (disch := decide) only [getLsbD_eq_element]
  exact ⟨h5, h6, h7⟩

/-- Settles O6: each element is the sum of a row of H, and a port bit is an element. -/
theorem syndromeEquations : Obligations.SyndromeEquations := by
  refine ⟨fun r => ?_, syndromeOf_encodeMessage⟩
  obtain ⟨h1, h2, h3⟩ := element_syndromeOf_rows r
  refine ⟨rfl, rfl, h1, h2, h3, ?_⟩
  simp (disch := decide) only [getLsbD_eq_element]
  exact ⟨h1, h2, h3⟩

/-- Settles O7: the mask is 1 at the position looked up and 0 elsewhere. -/
theorem correctorFlipsNamedBit : Obligations.CorrectorFlipsNamedBit := by
  intro r s
  refine ⟨rfl, rfl, fun hzero => ?_, fun hne => ?_, fun j hpos hle => ?_⟩
  · rw [correct_cw, hzero, flipMask_zero, BitVec.xor_zero]
  · rw [correct_cw, flipMask_of_ne_zero hne]
  · rw [correct_cw, element_xor, element_flipMask _ j (by omega) hpos]

/-- Settles O8: the decoder is built of the units; `MatVec` with D reads the high nibble. -/
theorem decoderComposes : Obligations.DecoderComposes := fun _ =>
  ⟨rfl, rfl, rfl, rfl, matVec_matD _⟩

/-- Settles O9: one flip is undone and located, and position 0 is no flip. -/
theorem singleFlipRecovered : Obligations.SingleFlipRecovered := by
  refine ⟨fun m p hpos hle => ?_, fun m => ?_⟩
  · obtain ⟨hne, htoNat⟩ := ofNat_position hpos hle
    rw [← flipMask_ofNat hpos hle, decodeCodeword_encodeMessage_flip, syndromeOf_flipMask _ hne, htoNat]
  · simpa using decodeCodeword_encodeMessage_flip m 0#3

/-- Settles O10: where the message came back, the corrector gave the codeword back (`correct_ne_encodeMessage`); the syndrome
is that of the error pattern alone, so the counts are over the 128 patterns. -/
theorem twoOrMoreFlipsNeverRecovered : Obligations.TwoOrMoreFlipsNeverRecovered := by
  refine ⟨fun m e he hmsg => ?_, fun m e he => ⟨?_, fun p hpos hle hflip => ?_⟩, fun m e => ?_, fun m e => ?_, ?_, ?_⟩
  · exact correct_ne_encodeMessage he m (by rw [← encodeMessage_decodeCodeword_msg, hmsg])
  · rw [decodeCodeword_syn, syndromeOf_encodeMessage_xor]
    intro hsyn
    have hweight := weight_of_syndromeOf_eq_zero hsyn
    omega
  · obtain ⟨hne, htoNat⟩ := ofNat_position hpos hle
    rw [decodeCodeword_pos, syndromeOf_encodeMessage_xor]
    exact synTab_ne_of_weight_two he hne (by rwa [htoNat])
  · rw [decodeCodeword_syn, syndromeOf_encodeMessage_xor, isCodeword_iff_syndromeOf]
  · rw [decodeCodeword_syn, decodeCodeword_pos, synTab_eq_zero_iff]
  · simp only [errorCases_eq]
    decide
  · simp only [decodeCodeword_syn, syndromeOf_encodeMessage_xor, errorCases_eq]
    decide

/-- Settles O11: the table is evaluated. -/
theorem codewordTable : Obligations.CodewordTable :=
  ⟨by decide, by decide, weight_encodeMessage⟩

/-- Settles O19: an operand without reserved bits is that of its message. -/
theorem encAnswersCodeword : Obligations.EncAnswersCodeword := by
  refine fun opd s => ⟨decode_encode (.enc opd), exec_m4_reserved (i := .enc opd) rfl s, fun hbits => ?_, rfl, rfl,
    exec_enc_m4Operand s 0x6#4⟩
  have hexec := exec_enc_m4Operand s (m4Message opd)
  rwa [m4Operand_m4Message hbits] at hexec

/-- Settles O20: an operand without its reserved bit is that of its codeword; the syndrome of a flip is a column of H. -/
theorem synAnswersSyndrome : Obligations.SynAnswersSyndrome := by
  refine fun opd s => ⟨decode_encode (.syn opd), exec_c7_reserved (i := .syn opd) rfl s, fun hbits => ?_,
    syndromeOf_encodeMessage, fun m p hp => ?_, rfl, exec_syn_c7Operand s 0x31#7⟩
  · have hexec := exec_syn_c7Operand s (c7Codeword opd)
    rwa [c7Operand_c7Codeword hbits] at hexec
  · rw [syndromeOf_encodeMessage_xor, syndromeOf_flipMask p hp]

/-- Settles O21: the corrected word has syndrome 0, so it is a codeword: the sent one after one flip, another after two. -/
theorem corAnswersCorrectedCodeword : Obligations.CorAnswersCorrectedCodeword := by
  refine fun opd s => ⟨decode_encode (.cor opd), exec_c7_reserved (i := .cor opd) rfl s, fun hbits => ?_,
    fun m p => ?_, fun m e he => correct_ne_encodeMessage he.ge m,
    fun r => isCodeword_iff_syndromeOf.mpr (syndromeOf_correct r), exec_cor_c7Operand s 0x31#7⟩
  · have hexec := exec_cor_c7Operand s (c7Codeword opd)
    rwa [c7Operand_c7Codeword hbits] at hexec
  · rw [syndromeOf_encodeMessage_xor, correct_encodeMessage_flip]

/-- Settles O22: an operand without its reserved bit is that of its codeword. -/
theorem decAnswersMessage : Obligations.DecAnswersMessage := by
  refine fun opd s => ⟨decode_encode (.dec opd), exec_c7_reserved (i := .dec opd) rfl s, fun hbits => ?_,
    exec_dec_c7Operand s 0x00#7, exec_dec_c7Operand s 0x01#7, exec_dec_c7Operand s 0x40#7, exec_dec_c7Operand s 0x30#7,
    exec_dec_c7Operand s 0x31#7⟩
  have hexec := exec_dec_c7Operand s (c7Codeword opd)
  rwa [c7Operand_c7Codeword hbits] at hexec

end Sys2Proof.Machine
end

section
/-! PROOFS. Any bytes survive one flip in each codeword (41_codec.md R128; 95_test_vectors.md section 4). A run is the fold of
its commands from the reset state (70_reset_and_hazards.md R241), and in that fold JOIN_DEC of a noisy codeword acts as if the
message itself had been joined. -/

namespace Sys2Proof.Machine

/-! ### A run is the fold of its commands from reset (20_memory.md R63; 70_reset_and_hazards.md R241) -/

section Run

variable {cmds : List Command} {s : State}

theorem acceptedCommands_map_command (cmds : List Command) : acceptedCommands (cmds.map Edge.command) = cmds := by
  induction cmds with
  | nil => rfl
  | cons cmd cmds ih =>
    rw [List.map_cons, acceptedCommands_cons_accepts (accepts_command cmd), ih]
    rfl

theorem drivenBy_commands (hinputs : s.inputs = cmds.map Edge.command) (hseen : s.resetSeen = true) :
    DrivenBy (cmds.map Edge.command) s where
  inputs := hinputs
  resetSeen := hseen
  sampled := by simp [Edge.command]
  noReset := by simp [Edge.command]

/-- The state a run starts in: powered on, with a reset edge and the commands ahead. -/
def runStart (draw : Nat) (cmds : List Command) : State :=
  { State.powerOn draw with inputs := Edge.reset :: cmds.map Edge.command }

/-- The first edge of a run is its reset, whatever the registers held at power-on. -/
theorem step_runStart (draw : Nat) (cmds : List Command) :
    step (runStart draw cmds) = .next (runStart draw cmds).consume.resetEdge :=
  (step_eq_clockEdge rfl).trans (clockEdge_of_rst _ rfl)

theorem run_eq_observe_acceptAll (draw : Nat) (cmds : List Command) :
    run draw cmds = observe (acceptAll cmds State.reset) := by
  have hdriven : DrivenBy (cmds.map Edge.command) (runStart draw cmds).consume.resetEdge := drivenBy_commands rfl rfl
  obtain ⟨rs, u, u', hclock, haccept, hfinal, -⟩ := clockAll_simulates_acceptAll hdriven (s' := State.reset) rfl
  rw [acceptedCommands_map_command] at haccept
  have hrun : run draw cmds = observe (.next (rs, u)) :=
    congrArg observe (clockAll_succ (step_runStart draw cmds) hclock)
  rw [hrun, haccept, observe_congr hfinal]

end Run

/-! ### Streams of JOIN_DECs of noisy codewords (42_bitstream.md R165, R169) -/

/-- A response with `ERR = OK` that reports exactly the byte `b`, if any, to the host. -/
structure OkReporting (b : Option Byte) (r : Response) : Prop where
  err : rspErr r = 0b00#2
  bytes : bytesOf [r] = b.toList

theorem OkReporting.bytesOf_cons {b : Option Byte} {r : Response} (hr : OkReporting b r) (rs : List Response) :
    bytesOf (r :: rs) = b.toList ++ bytesOf rs := by
  rw [← hr.bytes]
  simp only [bytesOf, ← List.map_append, ← List.filter_append, List.singleton_append]

/-- JOIN_DEC of a codeword with at most one flip joins the message that was encoded (R128, R169). -/
theorem exec_joinDec_noisy (s : State) (m : Message) (p : ErrorPosition) :
    ∃ r, exec (decode (joinDecWord (encodeMessage m ^^^ flipMask p))) s =
        .next ((s.setAdapter (joinNext .join m s.adapter)).answer r) ∧
      OkReporting (if s.pendV then some (s.pendN ++ m) else none) r := by
  have hmsg : (decodeCodeword (encodeMessage m ^^^ flipMask p)).msg = m := by rw [decodeCodeword_encodeMessage_flip]
  have hexec := exec_joinDec_c7Operand s (encodeMessage m ^^^ flipMask p)
  rw [hmsg] at hexec
  rw [joinDecWord, decode_encode]
  refine ⟨_, hexec, rspErr_respond .., ?_⟩
  cases hpend : s.pendV with
  | false => simp [bytesOf]
  | true =>
    simp [bytesOf, BitVec.extractLsb'_or, extractLsb'_zext16, extractLsb'_shiftLeft_below]

/-- The two messages of a byte, joined again (20_memory.md R53, R54). -/
theorem splitFirst_append_splitSecond (b : Byte) : splitFirst b ++ splitSecond b = b :=
  (BitVec.extractLsb'_append_extractLsb'_eq_extractLsb' (start₁ := 0) (len₁ := 4) rfl).trans
    BitVec.extractLsb'_eq_self

/-- From an empty adapter, the two noisy codewords of a byte give the byte with the second response, and leave the adapter
empty. -/
theorem exec_joinDec_noisy_pair {s : State} (hempty : s.adapter = Adapter.empty) (b : Byte) (p q : ErrorPosition) :
    ∃ t u, exec (decode (joinDecWord (encodeMessage (splitFirst b) ^^^ flipMask p))) s = .next t ∧
      exec (decode (joinDecWord (encodeMessage (splitSecond b) ^^^ flipMask q))) t = .next u ∧
      u.adapter = Adapter.empty ∧ OkReporting none t.rsp ∧ OkReporting (some b) u.rsp := by
  obtain ⟨hpend, -⟩ := Adapter.mk.inj hempty
  obtain ⟨r, hfirst, hr⟩ := exec_joinDec_noisy s (splitFirst b) p
  rw [hempty] at hfirst
  obtain ⟨r', hsecond, hr'⟩ := exec_joinDec_noisy
    ((s.setAdapter (joinNext .join (splitFirst b) Adapter.empty)).answer r) (splitSecond b) q
  refine ⟨_, _, hfirst, hsecond, rfl, ?_, ?_⟩
  · simpa [hpend] using hr
  · simpa [joinNext, splitFirst_append_splitSecond] using hr'

/-- The stream of a byte sequence's noisy codewords and an END, from an empty adapter. -/
theorem acceptAll_noisy_bytes {s : State} {bs : List Byte} {ps : List ErrorPosition} (hempty : s.adapter = Adapter.empty)
    (hlength : ps.length = (toCodewords (toMessages bs)).length) :
    ∃ rs t, acceptAll ((withNoise (toCodewords (toMessages bs)) ps).map joinDecWord ++ [endWord]) s = .next (rs, t) ∧
      bytesOf rs = bs ∧ (∀ r ∈ rs, rspErr r = 0b00#2) ∧ t.adapter = Adapter.empty := by
  induction bs generalizing s ps with
  | nil =>
    have hend : exec (decode endWord) s = .next (s.answer 0#24) := by
      rw [endWord, decode_encode]
      exact exec_discard_of_empty (.inl rfl) hempty
    have hend_ok : OkReporting none 0#24 := ⟨by decide, by decide⟩
    exact ⟨[0#24], s.answer 0#24, acceptAll_cons hend rfl, hend_ok.bytes, by simp [hend_ok.err], hempty⟩
  | cons b bs ih =>
    obtain ⟨p, q, ps, rfl⟩ : ∃ p q ps', ps = p :: q :: ps' := by
      match ps, hlength with
      | p :: q :: ps', _ => exact ⟨p, q, ps', rfl⟩
    obtain ⟨t, u, hfirst, hsecond, hu, ht_ok, hu_ok⟩ := exec_joinDec_noisy_pair hempty b p q
    obtain ⟨rs, v, hrest, hbytes, herr, hv⟩ := ih hu (ps := ps) (by simpa [toCodewords, toMessages] using hlength)
    refine ⟨t.rsp :: u.rsp :: rs, v, acceptAll_cons hfirst (acceptAll_cons hsecond hrest), ?_, ?_, hv⟩
    · rw [ht_ok.bytesOf_cons, hu_ok.bytesOf_cons, hbytes]
      rfl
    · simpa [ht_ok.err, hu_ok.err] using herr

/-! ### The statement -/

/-- Settles O46: the run is the fold from reset, and that fold gives the bytes back. -/
theorem noisyBytesComeBack : Obligations.NoisyBytesComeBack := by
  intro draw bs ps hlength
  obtain ⟨rs, t, hstream, hbytes, herr, hempty⟩ := acceptAll_noisy_bytes (s := State.reset) rfl hlength
  obtain ⟨hpendV, hpendN⟩ := Adapter.mk.inj hempty
  refine ⟨{ responses := rs, pendV := t.pendV, pendN := t.pendN }, ?_, hbytes, ?_, hpendV, hpendN⟩
  · rw [run_eq_observe_acceptAll, hstream, observe]
  · simpa [Observation.clean] using herr

end Sys2Proof.Machine
end

section
/-! PROOFS. The bitstream adapter of 42_bitstream.md: the unit and its wiring (R160), the commands SPLIT to CLR (R166 to R171),
the whole-buffer functions (R161 to R164), and the streams of commands that compute them (R165). -/

namespace Sys2Proof.Machine

/-! ### The split half and the packing of a byte (R160; 20_memory.md R53, R54) -/

/-- Element `i` of `n` bits that start at bit `start` (00_scope.md R9). -/
theorem element_extractLsb' {v : Operand} {start n i : Nat} (hpos : 1 ≤ i) (hle : i ≤ n) :
    element (v.extractLsb' start n) i = v.getLsbD (start + n - i) := by
  have hbit : n - i < n := by omega
  have hindex : start + (n - i) = start + n - i := by omega
  have helement := getLsbD_eq_element (v.extractLsb' start n) hbit
  rw [Nat.sub_sub_self hle] at helement
  rw [← helement, BitVec.getLsbD_extractLsb', hindex]
  simp [hbit]

theorem packByte_split (b : Byte) : packByte (splitFirst b) (splitSecond b) = b :=
  splitFirst_append_splitSecond b

@[simp] theorem splitFirst_packByte (x y : Message) : splitFirst (packByte x y) = x := by
  rw [splitFirst, packByte, BitVec.extractLsb'_append_eq_of_le (by decide), BitVec.extractLsb'_eq_self]

@[simp] theorem splitSecond_packByte (x y : Message) : splitSecond (packByte x y) = y := by
  rw [splitSecond, packByte, BitVec.extractLsb'_append_eq_of_add_le (by decide), BitVec.extractLsb'_eq_self]

/-! ### The join half given a message (R168) -/

section Join

variable {a : Adapter}

theorem joinNext_join_of_empty (msg : Message) (hpend : a.pendV = false) :
    joinNext .join msg a = { pendV := true, pendN := msg } := by
  simp [joinNext, hpend]

theorem joinNext_join_of_pending (msg : Message) (hpend : a.pendV = true) : joinNext .join msg a = Adapter.empty := by
  simp [joinNext, hpend]

theorem joinOutputs_join_of_empty (msg : Message) (hpend : a.pendV = false) :
    joinOutputs .join msg a = JoinOut.zero := by
  simp [joinOutputs, hpend]

theorem joinOutputs_join_of_pending (msg : Message) (hpend : a.pendV = true) :
    joinOutputs .join msg a = { JoinOut.zero with bv := true, byte := a.pendN ++ msg } := by
  simp [joinOutputs, hpend, packByte]

/-- END reports exactly a pending message (R170). -/
theorem joinOutputs_endStream (msg : Message) (a : Adapter) :
    joinOutputs .endStream msg a =
      { JoinOut.zero with disc := a.pendV, discMsg := if a.pendV then a.pendN else 0#4, errLen := a.pendV } := by
  cases hpend : a.pendV <;> simp [joinOutputs, hpend, JoinOut.zero]

end Join

/-! ### The commands JOIN, JOIN_DEC, END and CLR (R168 to R171) -/

section Commands

variable {s : State}

theorem exec_z_reserved {i : Instr} (hform : i.form = some .z) (s : State) (hbits : i.operand ≠ 0#8) :
    exec i s = raiseError .length s :=
  exec_of_reservedBits ((kind_eq_reservedBits_iff hform).mpr (bne_iff_ne.mpr hbits)) s

theorem exec_join_of_empty (m : Message) (hpend : s.pendV = false) :
    exec (.join (m4Operand m)) s =
      .next ((s.setAdapter { pendV := true, pendN := m }).answer (respond .ok false 0#3 0#16)) := by
  rw [exec_join_m4Operand, joinNext_join_of_empty m hpend, hpend]
  rfl

theorem exec_join_of_pending (m : Message) (hpend : s.pendV = true) :
    exec (.join (m4Operand m)) s =
      .next ((s.setAdapter Adapter.empty).answer (respond .ok true 0#3 (zext16 (s.pendN ++ m)))) := by
  rw [exec_join_m4Operand, joinNext_join_of_pending m hpend, hpend]
  rfl

theorem exec_joinDec_of_empty (r : Codeword) (hpend : s.pendV = false) :
    exec (.joinDec (c7Operand r)) s =
      .next ((s.setAdapter { pendV := true, pendN := (decodeCodeword r).msg }).answer
        (respond .ok false (decodeCodeword r).pos
          ((zext16 (decodeCodeword r).syn <<< 12) ||| (zext16 (decodeCodeword r).msg <<< 8)))) := by
  rw [exec_joinDec_c7Operand, joinNext_join_of_empty _ hpend, hpend]
  simp [zext16]

theorem exec_joinDec_of_pending (r : Codeword) (hpend : s.pendV = true) :
    exec (.joinDec (c7Operand r)) s =
      .next ((s.setAdapter Adapter.empty).answer
        (respond .ok true (decodeCodeword r).pos
          ((zext16 (decodeCodeword r).syn <<< 12) ||| (zext16 (decodeCodeword r).msg <<< 8) |||
            zext16 (s.pendN ++ (decodeCodeword r).msg)))) := by
  rw [exec_joinDec_c7Operand, joinNext_join_of_pending _ hpend, hpend]
  rfl

end Commands

/-! The same commands on an adapter whose registers are written out. -/

section Holding

variable (s : State) (n : Message)

theorem exec_join_holding (m : Message) :
    exec (.join (m4Operand m)) { s with pendV := true, pendN := n } =
      .next ((s.setAdapter Adapter.empty).answer (respond .ok true 0#3 (zext16 (n ++ m)))) :=
  exec_join_of_pending m rfl

theorem exec_joinDec_holding (r : Codeword) :
    exec (.joinDec (c7Operand r)) { s with pendV := true, pendN := n } =
      .next ((s.setAdapter Adapter.empty).answer
        (respond .ok true (decodeCodeword r).pos
          ((zext16 (decodeCodeword r).syn <<< 12) ||| (zext16 (decodeCodeword r).msg <<< 8) |||
            zext16 (n ++ (decodeCodeword r).msg)))) :=
  exec_joinDec_of_pending r rfl

theorem exec_endStream_holding :
    exec (.endStream 0#8) { s with pendV := true, pendN := n } =
      .next ((s.setAdapter Adapter.empty).answer (respond .length false 0#3 (zext16 (1#1 ++ n)))) :=
  exec_endStream_of_pending rfl

theorem exec_clr_holding (v : Bool) :
    exec (.clr 0#8) { s with pendV := v, pendN := n } =
      .next ((s.setAdapter Adapter.empty).answer (respond .ok false 0#3 (zext16 (BitVec.ofBool v ++ n)))) :=
  exec_clr _

end Holding

/-! ### The whole-buffer functions (R161 to R163) -/

section Sequences

variable {ms : List Message}

/-- `ToMessages` byte by byte. -/
theorem toMessages_eq_flatMap (bs : List Byte) : toMessages bs = bs.flatMap fun b => [splitFirst b, splitSecond b] := by
  induction bs with
  | nil => rfl
  | cons b bs ih => rw [toMessages, ih, List.flatMap_cons, List.cons_append, List.cons_append, List.nil_append]

theorem length_toMessages (bs : List Byte) : (toMessages bs).length = Config.msgsPerByte * bs.length := by
  induction bs with
  | nil => rfl
  | cons b bs ih =>
    simp only [toMessages, List.length_cons, ih, Config.msgsPerByte]
    omega

theorem getElem?_toMessages (bs : List Byte) (k : Nat) :
    (toMessages bs)[2 * k]? = bs[k]?.map splitFirst ∧ (toMessages bs)[2 * k + 1]? = bs[k]?.map splitSecond := by
  induction bs generalizing k with
  | nil => exact ⟨rfl, rfl⟩
  | cons b bs ih =>
    cases k with
    | zero => exact ⟨rfl, rfl⟩
    | succ k => exact ih k

theorem fromMessages_pair (a b : Message) {bytes : List Byte} (hms : fromMessages ms = .ok bytes) :
    fromMessages (a :: b :: ms) = .ok (packByte a b :: bytes) := by
  rw [fromMessages, hms]

theorem fromMessages_pair_error (a b : Message) {e : ErrKind} (hms : fromMessages ms = .error e) :
    fromMessages (a :: b :: ms) = .error e := by
  rw [fromMessages, hms]

/-- Two messages in front leave the number odd or even. -/
theorem length_pair_mod (a b : Message) (ms : List Message) : (a :: b :: ms).length % 2 = ms.length % 2 :=
  Nat.add_mod_right ms.length 2

theorem fromMessages_of_odd : ∀ {ms : List Message}, ms.length % 2 = 1 → fromMessages ms = .error .length
  | [_], _ => rfl
  | a :: b :: ms, hodd => fromMessages_pair_error a b (fromMessages_of_odd ((length_pair_mod a b ms).symm.trans hodd))

/-- The bytes of an even number of messages, two by two. -/
theorem fromMessages_of_even : ∀ {ms : List Message}, ms.length % 2 = 0 →
    ∃ bs, fromMessages ms = .ok bs ∧ 2 * bs.length = ms.length ∧
      ∀ k a b, ms[2 * k]? = some a → ms[2 * k + 1]? = some b → bs[k]? = some (packByte a b)
  | [], _ => ⟨[], rfl, rfl, fun _ _ _ hfirst => by cases hfirst⟩
  | x :: y :: ms, heven => by
    obtain ⟨bs, hms, hlength, hplaces⟩ := fromMessages_of_even ((length_pair_mod x y ms).symm.trans heven)
    refine ⟨packByte x y :: bs, fromMessages_pair x y hms, ?_, fun k a b hfirst hsecond => ?_⟩
    · simp only [List.length_cons]
      omega
    · cases k with
      | zero =>
        cases hfirst
        cases hsecond
        rfl
      | succ k => exact hplaces k a b hfirst hsecond

theorem fromMessages_eq_error_iff : fromMessages ms = .error .length ↔ ms.length % 2 = 1 := by
  refine ⟨fun herror => ?_, fromMessages_of_odd⟩
  by_contra hodd
  obtain ⟨bs, hok, -⟩ := fromMessages_of_even (ms := ms) (by omega)
  rw [hok] at herror
  cases herror

theorem fromMessages_toMessages (bs : List Byte) : fromMessages (toMessages bs) = .ok bs := by
  induction bs with
  | nil => rfl
  | cons b bs ih => rw [toMessages, fromMessages_pair _ _ ih, packByte_split]

end Sequences

/-! ### Streams of commands that read no state (R165 items 1 to 3) -/

/-- Commands that each answer alike in all states answer a stream word by word. -/
theorem acceptAll_of_answers {α : Type} {word : α → Command} {response : α → Response}
    (hword : ∀ x s, exec (decode (word x)) s = .next (s.answer (response x))) (xs : List α) (s : State) :
    ∃ t, acceptAll (xs.map word) s = .next (xs.map response, t) := by
  induction xs generalizing s with
  | nil => exact ⟨s, rfl⟩
  | cons x xs ih =>
    obtain ⟨t, hrest⟩ := ih (s.answer (response x))
    exact ⟨t, acceptAll_cons (hword x s) hrest⟩

section Words

variable (s : State)

theorem exec_splitWord (b : Byte) :
    exec (decode (encode (.split b))) s = .next (s.answer (respond .ok false 0#3 (zext16 b))) := by
  rw [decode_encode, exec_split]

theorem exec_encWord (m : Message) :
    exec (decode (encWord m)) s = .next (s.answer (respond .ok false 0#3 (zext16 (encodeMessage m)))) := by
  rw [encWord, decode_encode, exec_enc_m4Operand]

theorem exec_decWord (r : Codeword) :
    exec (decode (decWord r)) s = .next (s.answer (respond .ok false (synTab (syndromeOf r))
      ((zext16 (syndromeOf r) <<< 12) ||| zext16 (decodeCodeword r).msg))) := by
  rw [decWord, decode_encode, exec_dec_c7Operand]

theorem exec_splitEncWord (b : Byte) :
    exec (decode (encode (.splitEnc b))) s = .next (s.answer (respond .ok false 0#3
      ((zext16 (encodeMessage (splitFirst b)) <<< 7) ||| zext16 (encodeMessage (splitSecond b))))) := by
  rw [decode_encode]
  rfl

end Words

/-- The message in a DEC response, under the syndrome. -/
theorem decData_message (syn : Syndrome) (m : Message) :
    ((zext16 syn <<< 12) ||| zext16 m).extractLsb' 0 4 = m := by
  rw [BitVec.extractLsb'_or, extractLsb'_shiftLeft_below _ (by decide), extractLsb'_zext16 _ (by decide),
    BitVec.extractLsb'_eq_self, BitVec.zero_or]

/-- The two codewords in a SPLIT_ENC response. -/
theorem splitEncData_parts (x y : Codeword) :
    ((zext16 x <<< 7) ||| zext16 y).extractLsb' 7 7 = x ∧ ((zext16 x <<< 7) ||| zext16 y).extractLsb' 0 7 = y := by
  constructor
  · rw [BitVec.extractLsb'_or, extractLsb'_shiftLeft_above _ (by decide) (by decide), extractLsb'_zext16 _ (by decide),
      extractLsb'_zext16 _ (by decide), extractLsb'_eq_zero_of_le y (by decide), BitVec.or_zero, BitVec.extractLsb'_eq_self]
  · rw [BitVec.extractLsb'_or, extractLsb'_shiftLeft_below _ (by decide), extractLsb'_zext16 _ (by decide),
      BitVec.extractLsb'_eq_self, BitVec.zero_or]

/-! ### Streams that join messages (R165 items 4 and 5) -/

/-- A command word that gives the join half the message `m` in every state, and reports a completed byte to the host. -/
def JoinsMessage (cmd : Command) (m : Message) : Prop :=
  ∀ s : State, ∃ r, exec (decode cmd) s = .next ((s.setAdapter (joinNext .join m s.adapter)).answer r) ∧
    OkReporting (if s.pendV then some (s.pendN ++ m) else none) r

/-- A response made of the join half's outputs reports the byte that the message completes. -/
theorem ReportsByte.okReporting {f : JoinOut → Response} (hf : ReportsByte f) (herr : ∀ o, rspErr (f o) = 0b00#2)
    (m : Message) (s : State) :
    OkReporting (if s.pendV then some (s.pendN ++ m) else none) (f (joinOutputs .join m s.adapter)) where
  err := herr _
  bytes := by
    cases hpend : s.pendV <;>
      simp [bytesOf, hf.bv, hf.byte, joinOutputs_join_bv, joinOutputs_join_byte, hpend]

theorem joinWord_joins (m : Message) : JoinsMessage (joinWord m) m := by
  refine fun s => ⟨_, ?_, joinResponse_reportsByte.okReporting (fun _ => rspErr_respond ..) m s⟩
  rw [joinWord, decode_encode]
  simp [exec, execJoin, joinAndRespond_eq]

theorem joinDecWord_joins (r : Codeword) : JoinsMessage (joinDecWord r) (decodeCodeword r).msg := by
  refine fun s => ⟨_, ?_, (joinDecResponse_reportsByte (decodeCodeword r)).okReporting
    (fun _ => rspErr_respond ..) (decodeCodeword r).msg s⟩
  rw [joinDecWord, decode_encode]
  simp [exec, execJoinDec, joinAndRespond_eq]

/-- The answers to a stream of joined messages `ms` and its END: `rs` before END, and `r` to END. The bytes of `rs` are
`FromMessages`, less the last message of an odd stream, which END reports. -/
structure AnswersStream (ms : List Message) (rs : List Response) (r : Response) : Prop where
  length : rs.length = ms.length
  even : ms.length % 2 = 0 → fromMessages ms = .ok (bytesOf rs) ∧ r = 0#24
  odd : ms.length % 2 = 1 → fromMessages ms = .error .length ∧ fromMessages ms.dropLast = .ok (bytesOf rs) ∧
    ∃ m, ms.getLast? = some m ∧ rspErr r = 0b01#2 ∧ rspData r = zext16 (1#1 ++ m)

theorem answersStream_nil : AnswersStream [] [] 0#24 where
  length := rfl
  even _ := ⟨rfl, rfl⟩
  odd hodd := by cases hodd

theorem answersStream_singleton {x : Response} (m : Message) (hx : OkReporting none x) :
    AnswersStream [m] [x] (respond .length false 0#3 (zext16 (1#1 ++ m))) where
  length := rfl
  even heven := by cases heven
  odd _ := ⟨rfl, congrArg Except.ok hx.bytes.symm, m, rfl, rspErr_respond .., rspData_respond ..⟩

/-- Two more messages in front are one more byte in front. -/
theorem AnswersStream.cons_pair {ms : List Message} {rs : List Response} {r x y : Response} {a b : Message}
    (hrest : AnswersStream ms rs r) (hx : OkReporting none x) (hy : OkReporting (some (packByte a b)) y) :
    AnswersStream (a :: b :: ms) (x :: y :: rs) r := by
  have hbytes : bytesOf (x :: y :: rs) = packByte a b :: bytesOf rs := by
    rw [hx.bytesOf_cons, hy.bytesOf_cons]
    rfl
  refine ⟨by simp [hrest.length], fun heven => ?_, fun hodd => ?_⟩
  · obtain ⟨hfrom, hr⟩ := hrest.even ((length_pair_mod a b ms).symm.trans heven)
    exact ⟨hbytes ▸ fromMessages_pair a b hfrom, hr⟩
  · have hrest_odd : ms.length % 2 = 1 := (length_pair_mod a b ms).symm.trans hodd
    obtain ⟨-, hfrom, m, hlast, hr⟩ := hrest.odd hrest_odd
    obtain ⟨z, zs, rfl⟩ : ∃ z zs, ms = z :: zs := List.exists_cons_of_length_pos (by omega)
    exact ⟨fromMessages_of_odd hodd, hbytes ▸ fromMessages_pair a b hfrom, m, hlast, hr⟩

section Streams

variable {α : Type} {word : α → Command} {msg : α → Message} {s : State}

theorem JoinsMessage.exec_first {cmd : Command} {m : Message} (hcmd : JoinsMessage cmd m) (hpend : s.pendV = false) :
    ∃ x, exec (decode cmd) s = .next ((s.setAdapter { pendV := true, pendN := m }).answer x) ∧ OkReporting none x := by
  obtain ⟨x, hexec, hx⟩ := hcmd s
  rw [joinNext_join_of_empty m hpend] at hexec
  rw [hpend] at hx
  exact ⟨x, hexec, hx⟩

theorem JoinsMessage.exec_second {cmd : Command} {m : Message} (hcmd : JoinsMessage cmd m) (hpend : s.pendV = true) :
    ∃ y, exec (decode cmd) s = .next ((s.setAdapter Adapter.empty).answer y) ∧
      OkReporting (some (packByte s.pendN m)) y := by
  obtain ⟨y, hexec, hy⟩ := hcmd s
  rw [joinNext_join_of_pending m hpend] at hexec
  rw [hpend] at hy
  exact ⟨y, hexec, hy⟩

/-- A stream of joining commands and an END, from an empty adapter: the commands are taken two by two. -/
theorem acceptAll_joins (hword : ∀ x, JoinsMessage (word x) (msg x)) : ∀ (xs : List α) {s : State}, s.pendV = false →
    ∃ rs r t, acceptAll (xs.map word ++ [endWord]) s = .next (rs ++ [r], t) ∧ t.adapter = Adapter.empty ∧
      AnswersStream (xs.map msg) rs r
  | [], s, hpend => by
    have hend := exec_endStream_of_not_pending hpend
    rw [← decode_encode (.endStream 0#8)] at hend
    exact ⟨[], 0#24, _, acceptAll_cons hend rfl, rfl, answersStream_nil⟩
  | [x], s, hpend => by
    obtain ⟨p, hfirst, hp⟩ := (hword x).exec_first hpend
    have hend := exec_endStream_of_pending (s := (s.setAdapter { pendV := true, pendN := msg x }).answer p) rfl
    rw [← decode_encode (.endStream 0#8)] at hend
    exact ⟨[p], _, _, acceptAll_cons hfirst (acceptAll_cons hend rfl), rfl, answersStream_singleton (msg x) hp⟩
  | x :: y :: xs, s, hpend => by
    obtain ⟨p, hfirst, hp⟩ := (hword x).exec_first hpend
    obtain ⟨q, hsecond, hq⟩ := (hword y).exec_second (s := (s.setAdapter { pendV := true, pendN := msg x }).answer p) rfl
    obtain ⟨rs, r, t, hrest, hempty, hanswers⟩ := acceptAll_joins hword xs
      (s := (((s.setAdapter { pendV := true, pendN := msg x }).answer p).setAdapter Adapter.empty).answer q) rfl
    exact ⟨p :: q :: rs, r, t, acceptAll_cons hfirst (acceptAll_cons hsecond hrest), hempty, hanswers.cons_pair hp hq⟩

end Streams

/-! ### The statements -/

/-- Settles O40, over the three kinds of edge: reset empties, an edge that accepts nothing drives idle, and a command's next
state is one `joinNext` under its `joinDrive`. -/
theorem coreDrivesJoinHalf : Obligations.CoreDrivesJoinHalf := by
  intro e s t hedge
  obtain ⟨hrst, rfl⟩ | ⟨hrst, hvalid, rfl⟩ | ⟨hrst, hvalid, -, hexec⟩ := clockEdge_cases hedge
  · simp [joinEdge, hrst]
  · simp [joinEdge, hrst, edgeDrive, Edge.accepts, hvalid]
  · obtain ⟨r, rfl⟩ := exec_next_eq hexec
    simp [joinEdge, hrst, edgeDrive, accepts_iff.mpr ⟨hvalid, hrst⟩]

/-- Settles O41: the messages by their places, and the bytes two messages by two. -/
theorem sequenceFunctions : Obligations.SequenceFunctions :=
  ⟨fun bs => ⟨length_toMessages bs, fun k _ => getElem?_toMessages bs k⟩, fun _ => fromMessages_eq_error_iff.symm,
    fun _ => fromMessages_of_even, fun _ _ => List.getElem?_map, fun _ _ => List.getElem?_map⟩

/-- Settles O42: packing puts back what splitting took apart, and a codeword without a flip decodes to its message. -/
theorem roundTrips : Obligations.RoundTrips := by
  refine ⟨fromMessages_toMessages, fun m => ?_⟩
  have hdecode := decodeCodeword_encodeMessage_flip m 0#3
  rw [flipMask_zero, BitVec.xor_zero] at hdecode
  rw [hdecode]

/-- Settles O43: each stream answers word by word, and the parts of each word are the function's values. -/
theorem splitAndCodecStreams : Obligations.SplitAndCodecStreams := by
  refine ⟨fun s bs => ?_, fun s ms => ?_, fun s cs => ?_, fun s bs => ?_⟩
  · obtain ⟨t, hstream⟩ := acceptAll_of_answers (fun b s => exec_splitWord s b) bs s
    refine ⟨_, t, hstream, ?_⟩
    simp [toMessages_eq_flatMap, List.flatMap_map, extractLsb'_zext16, splitFirst, splitSecond]
  · obtain ⟨t, hstream⟩ := acceptAll_of_answers (fun m s => exec_encWord s m) ms s
    refine ⟨_, t, hstream, ?_⟩
    simp [toCodewords, extractLsb'_zext16]
  · obtain ⟨t, hstream⟩ := acceptAll_of_answers (fun r s => exec_decWord s r) cs s
    refine ⟨_, t, hstream, ?_⟩
    simp [fromCodewords, decData_message]
  · obtain ⟨t, hstream⟩ := acceptAll_of_answers (fun b s => exec_splitEncWord s b) bs s
    refine ⟨_, t, hstream, ?_⟩
    simp [toCodewords, toMessages_eq_flatMap, List.flatMap_map, List.map_flatMap, splitEncData_parts]

/-- Settles O44: JOIN joins its message. -/
theorem joinStreamIsFromMessages : Obligations.JoinStreamIsFromMessages := by
  intro s ms hpend
  obtain ⟨rs, r, t, hstream, hempty, hanswers⟩ := acceptAll_joins (msg := id) joinWord_joins ms hpend
  rw [List.map_id] at hanswers
  exact ⟨rs, r, t, hstream, hanswers.length, hempty, hanswers.even, hanswers.odd⟩

/-- Settles O45: JOIN_DEC joins the message it decodes. -/
theorem joinDecStreamIsFromMessages : Obligations.JoinDecStreamIsFromMessages := by
  intro s cs hpend
  obtain ⟨rs, r, t, hstream, hempty, hanswers⟩ := acceptAll_joins joinDecWord_joins cs hpend
  have hlength : (fromCodewords cs).length = cs.length := List.length_map ..
  rw [← hlength]
  exact ⟨rs, r, t, hstream, hanswers.length, hempty, hanswers.even, hanswers.odd⟩

/-- Settles O23: the two messages of a byte are the byte. -/
theorem splitAnswersTwoMessages : Obligations.SplitAnswersTwoMessages := fun opd s =>
  ⟨decode_encode (.split opd), rfl, congrArg zext16 (splitFirst_append_splitSecond opd), exec_split s 0x00#8,
    exec_split s 0xFF#8, exec_split s 0x48#8⟩

/-- Settles O24: two independent lanes, one codeword for each message of the byte. -/
theorem splitEncAnswersTwoCodewords : Obligations.SplitEncAnswersTwoCodewords := fun opd s =>
  ⟨decode_encode (.splitEnc opd), exec_splitEnc s opd, exec_splitEnc s 0x00#8, exec_splitEnc s 0xFF#8,
    exec_splitEnc s 0x48#8⟩

/-- Settles O25: an operand without reserved bits is that of its message, which the join half keeps or completes. -/
theorem joinAssemblesByte : Obligations.JoinAssemblesByte := by
  refine fun opd s => ⟨decode_encode (.join opd), exec_m4_reserved (i := .join opd) rfl s, fun hbits hpend => ?_,
    fun hbits hpend => ?_, fun hpend => ⟨exec_join_of_empty 0x4#4 hpend,
      exec_join_holding s 0x4#4 0x8#4, exec_join_of_empty 0x0#4 hpend⟩⟩
  · have hexec := exec_join_of_empty (m4Message opd) hpend
    rwa [m4Operand_m4Message hbits] at hexec
  · have hexec := exec_join_of_pending (m4Message opd) hpend
    rwa [m4Operand_m4Message hbits] at hexec

/-- Settles O26: an operand without its reserved bit is that of its codeword, whose message the join half keeps or
completes; one flip is undone before. -/
theorem joinDecAssemblesByte : Obligations.JoinDecAssemblesByte := by
  refine fun opd s => ⟨decode_encode (.joinDec opd), exec_c7_reserved (i := .joinDec opd) rfl s, fun hbits hpend => ?_,
    fun hbits hpend => ?_, fun m p => ?_, fun hpend => ⟨exec_joinDec_of_empty 0x25#7 hpend,
      exec_joinDec_holding s 0x4#4 0x41#7⟩⟩
  · have hexec := exec_joinDec_of_empty (c7Codeword opd) hpend
    rwa [c7Operand_c7Codeword hbits] at hexec
  · have hexec := exec_joinDec_of_pending (c7Codeword opd) hpend
    rwa [c7Operand_c7Codeword hbits] at hexec
  · rw [decodeCodeword_encodeMessage_flip]

/-- Settles O27: END with a message pending and with none, in every state. -/
theorem endChecksLength : Obligations.EndChecksLength := fun opd s =>
  ⟨decode_encode (.endStream opd), exec_z_reserved (i := .endStream opd) rfl s, exec_endStream_of_pending,
    exec_endStream_of_not_pending, exec_endStream_holding s 0x0#4,
    exec_endStream_holding s 0x6#4⟩

/-- Settles O28: CLR reports both registers, whatever they hold. -/
theorem clrReportsAndEmpties : Obligations.ClrReportsAndEmpties := fun opd s =>
  ⟨decode_encode (.clr opd), exec_z_reserved (i := .clr opd) rfl s, exec_clr s,
    exec_clr_holding s 0x0#4 false, exec_clr_holding s 0x9#4 true⟩

/-- Settles O39: the split half element by element, and the join half operation by operation. -/
theorem adapterUnit : Obligations.AdapterUnit := by
  refine ⟨fun b => ⟨rfl, rfl, fun i => element_extractLsb', fun i => element_extractLsb'_zero, packByte_split b⟩,
    fun x y => ⟨rfl, splitFirst_packByte x y, splitSecond_packByte x y⟩,
    ⟨rfl, rfl, rfl, rfl, fun op => by cases op <;> rfl⟩, fun op msg a => ?_⟩
  refine ⟨rfl, rfl, ⟨rfl, rfl⟩, fun hpend => ⟨joinNext_join_of_empty msg hpend, joinOutputs_join_of_empty msg hpend⟩,
    fun hpend => ?_, ?_, rfl, rfl, rfl, rfl⟩
  · rw [joinOutputs_join_of_pending msg hpend]
    exact ⟨joinNext_join_of_pending msg hpend, rfl, rfl⟩
  · rw [joinOutputs_endStream]
    exact ⟨rfl, rfl, rfl, fun hpend => if_pos hpend⟩

end Sys2Proof.Machine
end

section
/-! PROOFS. The errors of 60_exceptions.md. Which error a command answers is a function of its encoding and of END's pending
message (`rspErr_of_exec`; R201, R202, R204); an error of the encoding is one `raiseError` in every state (R205). What the
machine refuses is read off the kinds of edge (R217). -/

namespace Sys2Proof.Machine

/-! ### Which error a command answers (R200 to R202, R204) -/

/-- The error raised by an encoding, whatever the state (R204). -/
def encodingError : EncodingKind → ErrKind
  | .reservedOpcode => .unsupported
  | .reservedBits => .length
  | .valid => .ok

/-- The error a command answers: END's for a pending message (R201), or that of its encoding. -/
def answeredError (i : Instr) (s : State) : ErrKind :=
  if i = .endStream 0#8 ∧ s.pendV = true then .length else encodingError i.kind

theorem code_inj {k k' : ErrKind} : k.code = k'.code ↔ k = k' := by
  cases k <;> cases k' <;> decide

theorem encodingError_eq_unsupported_iff {k : EncodingKind} : encodingError k = .unsupported ↔ k = .reservedOpcode := by
  cases k <;> decide

theorem encodingError_eq_length_iff {k : EncodingKind} : encodingError k = .length ↔ k = .reservedBits := by
  cases k <;> decide

theorem encodingError_eq_ok_iff {k : EncodingKind} : encodingError k = .ok ↔ k = .valid := by
  cases k <;> decide

section Errors

variable {i : Instr} {s t : State}

theorem answeredError_of_ne_endStream (hend : i ≠ .endStream 0#8) : answeredError i s = encodingError i.kind :=
  if_neg fun h => hend h.1

theorem answeredError_endStream : answeredError (.endStream 0#8) s = if s.pendV then .length else .ok := by
  simp [answeredError, encodingError, Instr.kind, Instr.form, Instr.operand, reservedSet]

theorem answeredError_eq_unsupported_iff : answeredError i s = .unsupported ↔ i.kind = .reservedOpcode := by
  by_cases hend : i = .endStream 0#8
  · subst hend
    rw [answeredError_endStream]
    cases s.pendV <;> decide
  · rw [answeredError_of_ne_endStream hend, encodingError_eq_unsupported_iff]

theorem answeredError_eq_length_iff :
    answeredError i s = .length ↔ i.kind = .reservedBits ∨ (i = .endStream 0#8 ∧ s.pendV = true) := by
  by_cases hend : i = .endStream 0#8 ∧ s.pendV = true
  · simp [answeredError, hend]
  · simp [answeredError, hend, encodingError_eq_length_iff]

/-- END alone, of the valid commands, answers an error. -/
theorem endStream_of_valid_of_answeredError (hkind : i.kind = .valid) (herr : answeredError i s ≠ .ok) :
    i = .endStream 0#8 ∧ s.pendV = true := by
  by_contra hend
  exact herr ((if_neg hend).trans (encodingError_eq_ok_iff.mpr hkind))

/-- A command that is not valid raises the error of its encoding, in every state. -/
theorem exec_of_malformed (hkind : i.kind ≠ .valid) (s : State) : exec i s = raiseError (encodingError i.kind) s := by
  cases hcase : i.kind with
  | reservedOpcode => exact exec_of_reservedOpcode hcase s
  | reservedBits => exact exec_of_reservedBits hcase s
  | valid => exact absurd hcase hkind

/-- `ERR` of every command in every state. -/
theorem rspErr_of_exec (hexec : exec i s = .next t) : rspErr t.rsp = (answeredError i s).code := by
  by_cases hend : i = .endStream 0#8
  · subst hend
    rw [exec_endStream] at hexec
    cases hexec
    rw [answer_rsp, rspErr_respond, answeredError_endStream]
  rw [answeredError_of_ne_endStream hend]
  by_cases hkind : i.kind = .valid
  · obtain ⟨a, pos, data, hok, -⟩ := (exec_wellFormed (beq_iff_eq.mpr hkind) s).resolve_left hend
    rw [hok] at hexec
    cases hexec
    rw [answer_rsp, rspErr_respond, hkind, encodingError]
  · rw [exec_of_malformed hkind] at hexec
    cases hexec
    rw [answer_rsp, rspErr_respond]

/-- A command's `ERR` is the code of one error kind exactly when that is the error it answers. -/
theorem rspErr_eq_code_iff {k : ErrKind} (hexec : exec i s = .next t) :
    rspErr t.rsp = k.code ↔ answeredError i s = k := by
  rw [rspErr_of_exec hexec, code_inj]

/-- The answer to a command that is not valid: the error of its encoding with `BV`, `POS` and `DATA` 0, and nothing else
written (R205). -/
theorem next_of_malformed (hkind : i.kind ≠ .valid) (hexec : exec i s = .next t) :
    t = s.answer (respond (encodingError i.kind) false 0#3 0#16) := by
  rw [exec_of_malformed hkind] at hexec
  cases hexec
  rfl

end Errors

/-- The reserved bit of form C7 as a field of one bit (30_encoding.md R72). -/
theorem extractLsb'_bit_seven_ne_zero_iff {opd : Operand} : opd.extractLsb' 7 1 ≠ 0#1 ↔ opd.getLsbD 7 = true :=
  bne_iff_ne.symm.trans reservedSet_c7_iff

/-! ### What the machine refuses (R217) -/

section Refusals

variable {e : Edge} {s : State} {r : Refusal}

theorem exec_ne_refused (i : Instr) (s : State) (r : Refusal) : exec i s ≠ .refused r := by
  obtain ⟨a, x, hexec⟩ := exec_shape i s
  simp [hexec]

theorem clockEdge_of_accepts_before_reset (haccepts : e.accepts = true) (hseen : s.resetSeen = false) :
    clockEdge e s = .refused .startedWithoutReset := by
  obtain ⟨hvalid, hrst⟩ := accepts_iff.mp haccepts
  simp [clockEdge, hrst, hvalid, hseen]

/-- An edge refuses a command before the first reset and nothing else (10_state.md R33). -/
theorem clockEdge_eq_refused_iff :
    clockEdge e s = .refused r ↔
      r = .startedWithoutReset ∧ s.resetSeen = false ∧ e.rst = false ∧ e.cmdValid = true := by
  cases hrst : e.rst with
  | true => simp [clockEdge_of_rst s hrst]
  | false =>
    cases hvalid : e.cmdValid with
    | false => simp [clockEdge_of_idle s hrst hvalid]
    | true =>
      have haccepts := accepts_iff.mpr ⟨hvalid, hrst⟩
      cases hseen : s.resetSeen with
      | true => simp [clockEdge_of_accepts s haccepts hseen, exec_ne_refused]
      | false => simpa [clockEdge_of_accepts_before_reset haccepts hseen] using eq_comm

theorem skipsResponse_iff :
    skipsResponse e s = true ↔ s.resetSeen = true ∧ s.rspV = true ∧ e.rspSampled = false := by
  simp [skipsResponse, and_assoc]

theorem step_of_skipsResponse (hskip : skipsResponse s.presented s = true) : step s = .refused .responseSkipped :=
  if_pos hskip

/-- `Fault` has no constructor, so there is nothing to stop with (R217). -/
theorem step_ne_fault (s : State) (f : Fault) : step s ≠ .fault f := nomatch f

end Refusals

/-! ### The statements -/

/-- Settles O29: a reserved opcode raises UNSUPPORTED, and no other command's error has its code. -/
theorem reservedOpcodesAnswerUnsupported : Obligations.ReservedOpcodesAnswerUnsupported := by
  refine ⟨fun opd s => ⟨rfl, rfl, rfl, rfl, rfl, rfl⟩, fun i s t hexec => ?_⟩
  calc rspErr t.rsp = ErrKind.unsupported.code
      ↔ answeredError i s = .unsupported := rspErr_eq_code_iff hexec
    _ ↔ i.kind = .reservedOpcode := answeredError_eq_unsupported_iff
    _ ↔ i.form = none := kind_eq_reservedOpcode_iff
    _ ↔ opcode i ∈ [0x0#4, 0x7#4, 0xC#4, 0xD#4, 0xE#4, 0xF#4] := form_eq_none_iff i

/-- Settles O30: LENGTH is the error of reserved bits and END's; END's `DATA` is the one that is not 0. -/
theorem errLengthExactly : Obligations.ErrLengthExactly := by
  refine fun i s t hexec => ⟨?_, fun herr hend => ?_, ?_⟩
  · refine (rspErr_eq_code_iff (k := .length) hexec).trans ?_
    simp only [answeredError_eq_length_iff, kind_eq_reservedBits_iff_opcode, extractLsb'_bit_seven_ne_zero_iff, or_assoc]
  · obtain ⟨-, -, -, hdata, -⟩ := errorResponsesAreZero i s t hexec (by simp [herr])
    exact hdata hend
  · rintro rfl hpend
    rw [exec_endStream_of_pending hpend] at hexec
    cases hexec
    rw [answer_rsp, rspData_respond]
    obtain ⟨hdisc, hmsg, -⟩ := zext16_append_parts true s.pendN
    exact ⟨hdisc, hmsg⟩

/-- Settles O34: the error of an encoding is raised in every state and writes the response alone; END's empties the adapter. -/
theorem errorPrecedenceAndEffect : Obligations.ErrorPrecedenceAndEffect := by
  refine ⟨fun i s t hexec => ⟨fun hkind => ?_, fun hkind => ?_, fun hkind => ?_, fun hkind herr => ?_,
    fun hkind u hagain => ?_⟩, fun opd s hbits _ => exec_z_reserved (i := .endStream opd) rfl s hbits⟩
  · exact (rspErr_eq_code_iff hexec).mpr (answeredError_eq_unsupported_iff.mpr hkind)
  · exact (rspErr_eq_code_iff hexec).mpr (answeredError_eq_length_iff.mpr (.inl hkind))
  · rw [next_of_malformed hkind hexec]
    simp
  · obtain ⟨rfl, hpend⟩ := endStream_of_valid_of_answeredError hkind (mt (rspErr_eq_code_iff hexec).mpr herr)
    obtain ⟨hpendV, hpendN⟩ := Adapter.mk.inj (exec_discard_adapter (.inl rfl) hexec)
    exact ⟨rfl, hpend, hpendV, hpendN⟩
  · rw [next_of_malformed hkind hagain, next_of_malformed hkind hexec]
    rfl

/-- Settles O54: a skipped response was offered after a reset, and the edge's own refusal comes before any. -/
theorem refusalsExactly : Obligations.RefusalsExactly := by
  refine ⟨fun s r => ?_, step_ne_fault, fun code draw hcode => if_neg hcode, fun draw => if_pos rfl⟩
  cases hskip : skipsResponse s.presented s with
  | true =>
    obtain ⟨hseen, hoffered, hsampled⟩ := skipsResponse_iff.mp hskip
    simpa [step_of_skipsResponse hskip, hseen, hoffered, hsampled] using eq_comm
  | false =>
    have hnone := skipsResponse_iff.not.mp (ne_true_of_eq_false hskip)
    rw [step_eq_clockEdge hskip, clockEdge_eq_refused_iff, consume_resetSeen,
      or_iff_right fun hskipped => hnone hskipped.2]

/-- Settles O35: the three commands answer OK, with the corrected word or the decoded message at its place in `DATA`. -/
theorem uncorrectableNeverReported : Obligations.UncorrectableNeverReported := by
  refine fun r s => ⟨⟨_, exec_cor_c7Operand s r, ?_⟩, ⟨_, exec_dec_c7Operand s r, ?_⟩,
    ⟨_, exec_joinDec_c7Operand s r, ?_⟩⟩
  · simp [ErrKind.code, BitVec.extractLsb'_or, extractLsb'_zext16, extractLsb'_shiftLeft_below, correct_cw]
  · simp [ErrKind.code, decData_message]
  · simp [ErrKind.code, BitVec.extractLsb'_or, extractLsb'_zext16, extractLsb'_eq_zero_of_le,
      extractLsb'_shiftLeft_below, extractLsb'_shiftLeft_above]

/-- Settles O38: every command answers, and its response and its effect are functions of the adapter. -/
theorem everyWordAnsweredWhateverRspHolds : Obligations.EveryWordAnsweredWhateverRspHolds := by
  refine ⟨fun cmd s => ?_, fun i s v r => ?_⟩
  · obtain ⟨a, r, hexec⟩ := exec_shape (decode cmd) s
    exact ⟨_, hexec, rfl⟩
  · obtain ⟨next, response, hexec⟩ := exec_answersFromAdapter i
    rw [hexec, hexec]
    rfl

end Sys2Proof.Machine
end

section
/-! PROOFS. Reset and hazards (70_reset_and_hazards.md). After a reset every edge has a next state, which offers a response
exactly if the edge accepted a command (`clockEdge_offers_iff_accepts`; R235, R236); a reset edge ends in `State.reset`
whatever stood before it (R230, R232), so a run is a function of its commands (R241). -/

namespace Sys2Proof.Machine

section Edges

variable {e : Edge} {es : List Edge} {s : State}

theorem accepts_of_rst (hrst : e.rst = true) : e.accepts = false := by
  simp [Edge.accepts, Edge.cmdReady, hrst]

theorem accepts_of_not_cmdValid (hvalid : e.cmdValid = false) : e.accepts = false := by
  simp [Edge.accepts, hvalid]

/-- Every command ends with its response on offer (10_state.md R24), the host's drive and the reset behind it unchanged. -/
theorem exec_offers (i : Instr) (s : State) :
    ∃ t, exec i s = .next t ∧ t.rspValid = true ∧ t.resetSeen = s.resetSeen ∧ t.inputs = s.inputs := by
  obtain ⟨a, r, hexec⟩ := exec_shape i s
  exact ⟨_, hexec, rfl, rfl, rfl⟩

/-- After a reset no edge stops the machine, and `rsp_valid` says whether the edge accepted a command (R235). -/
theorem clockEdge_offers_iff_accepts (e : Edge) (hseen : s.resetSeen = true) :
    ∃ t, clockEdge e s = .next t ∧ t.rspValid = e.accepts := by
  cases hrst : e.rst with
  | true => exact ⟨s.resetEdge, clockEdge_of_rst s hrst, (accepts_of_rst hrst).symm⟩
  | false =>
    cases hvalid : e.cmdValid with
    | false => exact ⟨s.idleEdge, clockEdge_of_idle s hrst hvalid, (accepts_of_not_cmdValid hvalid).symm⟩
    | true =>
      have haccepts := accepts_iff.mpr ⟨hvalid, hrst⟩
      obtain ⟨t, hexec, hoffered, -⟩ := exec_offers (decode e.cmd) s
      exact ⟨t, (clockEdge_of_accepts s haccepts hseen).trans hexec, hoffered.trans haccepts.symm⟩

/-- A step at which the host samples what it is offered is the edge at the head of its drive (R240). -/
theorem step_of_sampled (hinputs : s.inputs = e :: es) (hsampled : e.rspSampled = true) :
    step s = clockEdge e s.consume := by
  have hpresented : s.presented = e := presented_cons e es s hinputs
  have hskip : skipsResponse s.presented s = false := by simp [hpresented, skipsResponse, hsampled]
  rw [step_eq_clockEdge hskip, hpresented]

/-- One sampled reset edge leaves nothing of the state before it but the host's further drive (R232). -/
theorem step_of_rst (hinputs : s.inputs = e :: es) (hsampled : e.rspSampled = true) (hrst : e.rst = true) :
    step s = .next { State.reset with inputs := es } := by
  have hreset : s.consume.resetEdge = { State.reset with inputs := es } := by
    simp [State.resetEdge, State.reset, hinputs]
  rw [step_of_sampled hinputs hsampled, clockEdge_of_rst _ hrst, hreset]

end Edges

/-- The fold of any commands runs to its end, from any state (20_memory.md R63). -/
theorem acceptAll_completes (cmds : List Command) (s : State) : ∃ rs u, acceptAll cmds s = .next (rs, u) := by
  induction cmds generalizing s with
  | nil => exact ⟨[], s, rfl⟩
  | cons cmd cmds ih =>
    obtain ⟨t, hexec, -⟩ := exec_offers (decode cmd) s
    obtain ⟨rs, u, hrest⟩ := ih t
    exact ⟨_, u, acceptAll_cons hexec hrest⟩

/-! ### The statements -/

/-- Settles O53: the command's step leaves its response offered, and the edge after it, which samples that response, offers
one again exactly if it accepts a command. -/
theorem responseOfferedForOneCycle : Obligations.ResponseOfferedForOneCycle := by
  intro cmd e es s hseen hinputs hsampled
  obtain ⟨t, hexec, hoffered, hseen_t, hinputs_t⟩ := exec_offers (decode cmd) s.consume
  have hfirst : step s = .next t := by
    rw [step_of_sampled hinputs rfl, clockEdge_of_accepts s.consume (accepts_command cmd) hseen]
    exact hexec
  have hseen' : t.consume.resetSeen = true := hseen_t.trans hseen
  have hinputs' : t.inputs = e :: es := by rw [hinputs_t, consume_inputs, hinputs, List.tail_cons]
  obtain ⟨u, hedge, hu⟩ := clockEdge_offers_iff_accepts e hseen'
  refine ⟨t, u, hexec, ?_, hoffered, ?_, hu, fun haccepts => ?_⟩
  · have hclock := clockAll_succ (n := 0) hfirst rfl
    rwa [if_pos hoffered] at hclock
  · rw [step_of_sampled hinputs' hsampled, hedge]
  · rw [← clockEdge_of_accepts _ haccepts hseen', hedge]

/-- Settles O59: a run is the fold of its commands from reset, and that fold completes. -/
theorem runIsIndependentOfPowerOn : Obligations.RunIsIndependentOfPowerOn := by
  intro draw cmds
  obtain ⟨rs, u, haccept⟩ := acceptAll_completes cmds State.reset
  refine ⟨run_eq_observe_acceptAll draw cmds, ⟨rs, u.pendV, u.pendN⟩, ?_⟩
  rw [run_eq_observe_acceptAll, haccept, observe]

/-- Settles O48: the reset edge is `step_of_rst`, and the command after it is accepted from the reset values. -/
theorem resetEdgeTakesNoCommand : Obligations.ResetEdgeTakesNoCommand := by
  intro e cmd es s hrst hsampled
  refine ⟨by simp [Edge.cmdReady, hrst], accepts_of_rst hrst, step_of_rst rfl hsampled hrst, ?_⟩
  exact step_of_accepts (e := Edge.command cmd) rfl (accepts_command cmd) rfl fun _ => rfl

/-- Settles O49, by the kind of the edge. -/
theorem edgeBehaviour : Obligations.EdgeBehaviour := by
  refine fun e s => ⟨clockEdge_of_rst s, fun hrst hvalid hseen => ?_, fun hrst hvalid hseen => ?_, clockEdge_of_idle s⟩
  · exact clockEdge_of_accepts s (accepts_iff.mpr ⟨hvalid, hrst⟩) hseen
  · obtain ⟨t, hedge, hoffered⟩ := clockEdge_offers_iff_accepts e hseen
    exact ⟨t, hedge, hoffered.trans (accepts_iff.mpr ⟨hvalid, hrst⟩)⟩

end Sys2Proof.Machine
end
